-- ==== Sys2Proof/Word.lean ====
section
/-! DEFINITION. The word types of the EK412 and the two plainest operations on them. -/

namespace Sys2Proof

/-- One byte of a frame, a message or a payload. -/
abbrev Byte := BitVec 8

/-- The 64 bytes of one line. Byte 0, the lowest-addressed byte, is the TOP byte, so that the
most-significant-byte-first fields of chapter 11 are read by plain concatenation. -/
abbrev LineData := BitVec 512

/-- The 64 byte enables of a WRITE. -/
abbrev ByteMask := BitVec 64

/-- A log position: a counter that wraps from 2^32 - 1 to 0 (00_scope, Conventions). -/
abbrev Position := BitVec 32

/-- A checkpoint number, 1 to 65535 (R1). -/
abbrev CkptNumber := BitVec 16

/-- An operation id of the cascade link (R160). -/
abbrev OpId := BitVec 8

end Sys2Proof
end

