-- ==== Sys2Proof/Config.lean ====
section
/-! DEFINITION. The fixed capacities and codes of the part (00_scope, Numbers at a glance; R182).
The spec leaves no value of the part open, so Config holds no free value. -/

namespace Sys2Proof.Config

/-- Line addresses are 0 to 2^34 - 1. -/
@[simp] abbrev maxLines : Nat := 2 ^ 34
/-- The admission queue holds at most 16 requests (R127). -/
@[simp] abbrev admissionCap : Nat := 16
/-- The fence list holds at most 8 requests (R129). -/
@[simp] abbrev fenceCap : Nat := 8
/-- The refusal queue holds at most 4 items (R121). -/
@[simp] abbrev refusalCap : Nat := 4
/-- The tracker has 32 entries (R91). -/
@[simp] abbrev trackerCap : Nat := 32
/-- The preservation filter has 1024 sets (R45). -/
@[simp] abbrev filterSets : Nat := 1024
/-- The checkpoint stack holds at most 8 records (R1). -/
@[simp] abbrev stackCap : Nat := 8
/-- The records field saturates at 2^26 (R3); also the largest log capacity (R27). -/
@[simp] abbrev recordsMax : Nat := 2 ^ 26
/-- The unrestored list holds at most 16 lines (R69). -/
@[simp] abbrev unrestoredCap : Nat := 16
/-- The overflow count and the bad-message count saturate at 65535 (R69, R159). -/
@[simp] abbrev count16Max : Nat := 65535
/-- A send list holds at most 4 messages (R158). -/
@[simp] abbrev sendCap : Nat := 4
/-- The reset caused by WARM_RESET lasts 10 µs (R201). -/
@[simp] abbrev commandResetMicros : Nat := 10
/-- The format mark of an undo record, "EKR1" (R59). -/
@[simp] abbrev formatMark : BitVec 32 := 0x454B5231#32
/-- The generator of the check value (R218). -/
@[simp] abbrev crcGenerator : BitVec 32 := 0x04C11DB7#32
/-- The sum modulo 256 of every management frame and cascade message (R219, R220). -/
@[simp] abbrev frameSum : Byte := 0x55#8
/-- The most parameter bytes a good frame carries (R178). -/
@[simp] abbrev maxParams : Nat := 32
/-- The part code IDENTIFY returns (R182). -/
@[simp] abbrev partCode : Nat := 412
/-- The revision IDENTIFY returns (R182). -/
@[simp] abbrev revision : Nat := 1

end Sys2Proof.Config
end

