-- ==== Sys2Proof/Machine/Bytes.lean ====
section
/-! DEFINITION. Byte helpers of chapter 11: multi-byte fields most significant byte first, and the
check byte that brings a frame or a message to the sum 0x55. -/

namespace Sys2Proof

/-- Two bytes as a 16-bit field, most significant first. -/
def word16 (a b : Byte) : BitVec 16 := a ++ b

/-- Four bytes as a 32-bit field, most significant first. -/
def word32 (a b c d : Byte) : BitVec 32 := a ++ b ++ c ++ d

/-- Five bytes as a 40-bit field, most significant first: the field of a 34- or 35-bit quantity. -/
def word40 (a b c d e : Byte) : BitVec 40 := a ++ b ++ c ++ d ++ e

/-- The bytes of a 16-bit field. -/
def bytes16 (x : BitVec 16) : List Byte := [x.extractLsb' 8 8, x.extractLsb' 0 8]

/-- The bytes of a 32-bit field. -/
def bytes32 (x : BitVec 32) : List Byte :=
  [x.extractLsb' 24 8, x.extractLsb' 16 8, x.extractLsb' 8 8, x.extractLsb' 0 8]

/-- The bytes of a 40-bit field. -/
def bytes40 (x : BitVec 40) : List Byte :=
  [x.extractLsb' 32 8, x.extractLsb' 24 8, x.extractLsb' 16 8, x.extractLsb' 8 8, x.extractLsb' 0 8]

/-- A number as a field of n bytes, most significant first. -/
def be : (n : Nat) → (x : Nat) → List Byte
  | 0, _ => []
  | n + 1, x => BitVec.ofNat 8 (x >>> (8 * n)) :: be n x

/-- A switch byte: 1 for on, 0 for off (R219). -/
def switchByte (b : Bool) : Byte := if b then 1 else 0

/-- The sum of bytes modulo 256. -/
def sumBytes (bs : List Byte) : Byte := bs.foldr (· + ·) 0

/-- The check byte that makes the sum of a frame or message 0x55 (R219, R220). -/
def checkByte (bs : List Byte) : Byte := Config.frameSum - sumBytes bs

/-- A frame or message with its check byte. -/
def withCheck (bs : List Byte) : List Byte := bs ++ [checkByte bs]

end Sys2Proof
end

