-- ==== Sys2Proof/Syntax.lean ====
section
/-! DEFINITION. The commands and events the EK412 takes: one constructor per row of
spec/opcode_table.json, in the table's order, with the operands each event carries. -/

namespace Sys2Proof

/-- The kind of a line-port request or response. -/
inductive RwKind
  | read
  | write
deriving DecidableEq, Repr

/-- What a line-port request asks: a READ of a line, or a WRITE with its byte enables and data (R91). -/
inductive LineOp
  | read
  | write (mask : ByteMask) (data : LineData)
deriving DecidableEq, Repr

/-- A request as the upstream master offers it (R115, R127). -/
structure HostRequest where
  tag  : Fin 64
  op   : LineOp
  line : Nat
deriving DecidableEq, Repr

/-- The status of a downstream response: OK, ERROR, or any other value (R145). -/
inductive DownStatus
  | ok
  | error
  | other
deriving DecidableEq, Repr

/-- The two sides of a unit in a chain (R155). -/
inductive Side
  | up
  | down
deriving DecidableEq, Repr

/-- The two kinds of long operation (R7, R157). -/
inductive OpKind
  | take
  | rollback
deriving DecidableEq, Repr

/-- The reasons of READY(REFUSE) (R157). -/
inductive RefuseReason
  | stackFull
  | state
  | notFound
  | broken
deriving DecidableEq, Repr

/-- The verdict of READY (R157). -/
inductive ReadyVerdict
  | ok
  | refuse (reason : RefuseReason)
deriving DecidableEq, Repr

/-- The outcome a DONE message reports, best first (R157, R164). -/
inductive DoneOutcome
  | done
  | partly
  | corrupt
  | failed
deriving DecidableEq, Repr

/-- The source an ASK message carries (R157). -/
inductive AskSource
  | line
  | timer
deriving DecidableEq, Repr

/-- A cascade message by its kind and the fields the kind carries (R157). -/
inductive Message
  | prepare (id : OpId) (kind : OpKind) (number : CkptNumber)
  | ready (id : OpId) (verdict : ReadyVerdict)
  | go (id : OpId) (number : CkptNumber)
  | abandon (id : OpId)
  | done (id : OpId) (outcome : DoneOutcome)
  | ask (source : AskSource)
deriving DecidableEq, Repr

/-- One constructor per row of the table of steps. The parameters of the management commands are
the fields of their request frames at the widths of R219; a received cascade message carries the
side it arrived on and the fields its receiver examines (R157, R220). -/
inductive Instr
  -- host traffic
  | requestTaken (r : HostRequest)
  | admission
  | fenceDeferral
  -- the downstream port
  | grant
  | downstreamRequestTaken
  | downstreamResponse (tag : Fin 32) (kind : RwKind) (status : DownStatus) (data : LineData)
  | downstreamTimeout (tag : Fin 32)
  | commitWaitExit (entry : Fin 32)
  -- the response channel
  | responseOffer
  | responseTaken
  -- the checkpoint controller
  | takeSettled
  | triggerTakeStart
  | rollbackSettled
  | stallLimitExpiry
  | ckptReqRise
  | intervalExpiry
  -- the cascade link
  | messageSent (side : Side)
  | badMessage (side : Side) (bytes : List Byte)
  | prepareReceived (side : Side) (id : OpId) (kind : OpKind) (number : CkptNumber)
  | readyReceived (side : Side) (id : OpId) (verdict : ReadyVerdict)
  | goReceived (side : Side) (id : OpId) (number : CkptNumber)
  | abandonReceived (side : Side) (id : OpId)
  | doneReceived (side : Side) (id : OpId) (outcome : DoneOutcome)
  | askReceived (side : Side) (source : AskSource)
  | agreementTimeout
  | holdTimeout
  | leaderGo
  | readyOkSend
  | doneSend
  -- the management port
  | transactionStart
  | transactionEnd
  | badFrame (bytes : List Byte)
  | unknownCommand (bytes : List Byte)
  | identify
  | setMemorySize (size : BitVec 40)
  | setWindow (index enable : Byte) (base count : BitVec 40)
  | setLog (base : BitVec 40) (capacity : BitVec 32) (policy : Byte) (stallLimit : BitVec 16) (watermark : BitVec 32)
  | setDownstream (limit host preserve restore : Byte) (timeout : BitVec 16)
  | setTriggers (lineEnable : Byte) (interval : BitVec 16) (autoTake rolling : Byte)
  | setCascade (role last : Byte) (agreementLimit holdLimit : BitVec 16)
  | take
  | release (n : Byte)
  | rollback (k : CkptNumber)
  | releaseFence
  | readStatus
  | readCheckpoints
  | readResult
  | readUnrestored (option : Option Byte)
  | readCounters
  | clearCounters
  | setAlertMask (mask : BitVec 16)
  | clearAlerts (causes : BitVec 16)
  | warmReset
  | commandResetEnd (ckptReq : Bool)
  -- the reset lines
  | porstNAssert
  | porstNRelease (ckptReq : Bool)
  | wrstNAssert
  | wrstNRelease (ckptReq : Bool)
deriving DecidableEq, Repr

end Sys2Proof
end

