-- ==== Sys2Proof/Decode.lean ====
section
/-! DEFINITION. Judging a management request frame (R178, R219) and reading a cascade message
(R157, R220), each with the encoder written from the same tables. No row of the opcode table
gives bits, so no table word spells a command (log 5). -/

namespace Sys2Proof

/-- No row of spec/opcode_table.json gives bits: a word spells no command (log 5). -/
def decodeTableWord (_nbits _w : Nat) : Option Instr := none

/-! ## Management request frames -/

/-- The command codes of the part (R182 to R201). -/
def commandCodes : List Byte :=
  [0x01, 0x10, 0x11, 0x12, 0x13, 0x14, 0x15, 0x16, 0x20, 0x21, 0x22, 0x23,
   0x30, 0x31, 0x32, 0x33, 0x34, 0x38, 0x39, 0x3F]

/-- The command a code and its parameter bytes spell, by the parameter layout of R219; none where
the code is unknown or the length is not one the command takes. -/
def parseParams (code : Byte) (p : List Byte) : Option Instr :=
  if code = 0x01 then (match p with | [] => some .identify | _ => none)
  else if code = 0x10 then
    (match p with | [a, b, c, d, e] => some (.setMemorySize (word40 a b c d e)) | _ => none)
  else if code = 0x11 then
    (match p with
     | [i, en, a, b, c, d, e, f, g, h, j, k] =>
       some (.setWindow i en (word40 a b c d e) (word40 f g h j k))
     | _ => none)
  else if code = 0x12 then
    (match p with
     | [a, b, c, d, e, f, g, h, i, pol, l0, l1, w0, w1, w2, w3] =>
       some (.setLog (word40 a b c d e) (word32 f g h i) pol (word16 l0 l1) (word32 w0 w1 w2 w3))
     | _ => none)
  else if code = 0x13 then
    (match p with
     | [l, h, pr, r, t0, t1] => some (.setDownstream l h pr r (word16 t0 t1)) | _ => none)
  else if code = 0x14 then
    (match p with
     | [le, i0, i1, au, ro] => some (.setTriggers le (word16 i0 i1) au ro) | _ => none)
  else if code = 0x15 then
    (match p with
     | [r, l, a0, a1, h0, h1] => some (.setCascade r l (word16 a0 a1) (word16 h0 h1)) | _ => none)
  else if code = 0x16 then (match p with | [a, b] => some (.setAlertMask (word16 a b)) | _ => none)
  else if code = 0x20 then (match p with | [] => some .take | _ => none)
  else if code = 0x21 then (match p with | [n] => some (.release n) | _ => none)
  else if code = 0x22 then (match p with | [a, b] => some (.rollback (word16 a b)) | _ => none)
  else if code = 0x23 then (match p with | [] => some .releaseFence | _ => none)
  else if code = 0x30 then (match p with | [] => some .readStatus | _ => none)
  else if code = 0x31 then (match p with | [] => some .readCheckpoints | _ => none)
  else if code = 0x32 then (match p with | [] => some .readResult | _ => none)
  else if code = 0x33 then
    (match p with
     | [] => some (.readUnrestored none) | [o] => some (.readUnrestored (some o)) | _ => none)
  else if code = 0x34 then (match p with | [] => some .readCounters | _ => none)
  else if code = 0x38 then (match p with | [] => some .clearCounters | _ => none)
  else if code = 0x39 then (match p with | [a, b] => some (.clearAlerts (word16 a b)) | _ => none)
  else if code = 0x3F then (match p with | [] => some .warmReset | _ => none)
  else none

/-- The answer of the first four checks of R178 to the bytes of a request phase. -/
inductive Judgement
  /-- the check byte has not been received whole -/
  | incomplete
  /-- BAD_FRAME: the check byte or the length fails -/
  | badFrame
  /-- UNKNOWN_COMMAND: the code names no command -/
  | unknown
  /-- a good frame and the command it carries -/
  | good (c : Instr)
deriving DecidableEq, Repr

/-- The judging of a request frame (R178, checks 1 to 4, in order; layout of R219). -/
def judgeFrame (bytes : List Byte) : Judgement :=
  match bytes with
  | code :: len :: rest =>
    if rest.length ≠ len.toNat + 1 then .incomplete
    else if sumBytes bytes ≠ Config.frameSum then .badFrame
    else if len.toNat > Config.maxParams then .badFrame
    else if commandCodes.contains code = false then .unknown
    else match parseParams code (rest.take len.toNat) with
      | some c => .good c
      | none => .badFrame
  | _ => .incomplete

/-- A request frame from its code and parameters. -/
def requestFrame (code : Byte) (p : List Byte) : List Byte :=
  withCheck (code :: BitVec.ofNat 8 p.length :: p)

/-- The request frame of a management command; none for a row that is not one. -/
def encodeFrame : Instr → Option (List Byte)
  | .identify => some (requestFrame 0x01 [])
  | .setMemorySize s => some (requestFrame 0x10 (bytes40 s))
  | .setWindow i en b c => some (requestFrame 0x11 ([i, en] ++ bytes40 b ++ bytes40 c))
  | .setLog b cap pol lim w =>
    some (requestFrame 0x12 (bytes40 b ++ bytes32 cap ++ [pol] ++ bytes16 lim ++ bytes32 w))
  | .setDownstream l h pr r t => some (requestFrame 0x13 ([l, h, pr, r] ++ bytes16 t))
  | .setTriggers le i au ro => some (requestFrame 0x14 ([le] ++ bytes16 i ++ [au, ro]))
  | .setCascade r l a h => some (requestFrame 0x15 ([r, l] ++ bytes16 a ++ bytes16 h))
  | .setAlertMask m => some (requestFrame 0x16 (bytes16 m))
  | .take => some (requestFrame 0x20 [])
  | .release n => some (requestFrame 0x21 [n])
  | .rollback k => some (requestFrame 0x22 (bytes16 k))
  | .releaseFence => some (requestFrame 0x23 [])
  | .readStatus => some (requestFrame 0x30 [])
  | .readCheckpoints => some (requestFrame 0x31 [])
  | .readResult => some (requestFrame 0x32 [])
  | .readUnrestored none => some (requestFrame 0x33 [])
  | .readUnrestored (some o) => some (requestFrame 0x33 [o])
  | .readCounters => some (requestFrame 0x34 [])
  | .clearCounters => some (requestFrame 0x38 [])
  | .clearAlerts c => some (requestFrame 0x39 (bytes16 c))
  | .warmReset => some (requestFrame 0x3F [])
  | .requestTaken _ | .admission | .fenceDeferral | .grant | .downstreamRequestTaken
  | .downstreamResponse _ _ _ _ | .downstreamTimeout _ | .commitWaitExit _ | .responseOffer
  | .responseTaken | .takeSettled | .triggerTakeStart | .rollbackSettled | .stallLimitExpiry
  | .ckptReqRise | .intervalExpiry | .messageSent _ | .badMessage _ _ | .prepareReceived _ _ _ _
  | .readyReceived _ _ _ | .goReceived _ _ _ | .abandonReceived _ _ | .doneReceived _ _ _
  | .askReceived _ _ | .agreementTimeout | .holdTimeout | .leaderGo | .readyOkSend | .doneSend
  | .transactionStart | .transactionEnd | .badFrame _ | .unknownCommand _ | .commandResetEnd _
  | .porstNAssert | .porstNRelease _ | .wrstNAssert | .wrstNRelease _ => none

/-! ## Cascade messages -/

/-- The verdict byte of READY (R220). -/
def readyByte : ReadyVerdict → Byte
  | .ok => 0
  | .refuse .stackFull => 1
  | .refuse .state => 2
  | .refuse .notFound => 3
  | .refuse .broken => 4

/-- The verdict byte of DONE (R220). -/
def doneByte : DoneOutcome → Byte
  | .done => 1
  | .partly => 2
  | .corrupt => 3
  | .failed => 4

/-- The six bytes of a message, with 0 in the fields R220 names. -/
def encodeMessage : Message → List Byte
  | .prepare id .take _ => withCheck [1, id, 0, 0, 1]
  | .prepare id .rollback k => withCheck ([1, id] ++ bytes16 k ++ [2])
  | .ready id v => withCheck [2, id, 0, 0, readyByte v]
  | .go id n => withCheck ([3, id] ++ bytes16 n ++ [0])
  | .abandon id => withCheck [4, id, 0, 0, 0]
  | .done id o => withCheck [5, id, 0, 0, doneByte o]
  | .ask .line => withCheck [6, 0, 0, 0, 1]
  | .ask .timer => withCheck [6, 0, 0, 0, 2]

/-- The READY verdict a byte carries. -/
def readyOf (v : Byte) : Option ReadyVerdict :=
  if v = 0 then some .ok
  else if v = 1 then some (.refuse .stackFull)
  else if v = 2 then some (.refuse .state)
  else if v = 3 then some (.refuse .notFound)
  else if v = 4 then some (.refuse .broken)
  else none

/-- The DONE outcome a byte carries. -/
def doneOf (v : Byte) : Option DoneOutcome :=
  if v = 1 then some .done
  else if v = 2 then some .partly
  else if v = 3 then some .corrupt
  else if v = 4 then some .failed
  else none

/-- The message kind, id, number and verdict spell; none where the verdict is not one the kind
allows, or the number is 0 where R157 gives one. -/
def messageOf (kind id : Byte) (number : CkptNumber) (v : Byte) : Option Message :=
  if kind = 1 then
    if v = 1 then some (.prepare id .take 0)
    else if v = 2 ∧ number ≠ 0 then some (.prepare id .rollback number)
    else none
  else if kind = 2 then (readyOf v).map (.ready id)
  else if kind = 3 then if v = 0 ∧ number ≠ 0 then some (.go id number) else none
  else if kind = 4 then if v = 0 then some (.abandon id) else none
  else if kind = 5 then (doneOf v).map (.done id)
  else if kind = 6 then
    if v = 1 then some (.ask .line) else if v = 2 then some (.ask .timer) else none
  else none

/-- Reading the bytes of a received message: none where the message is bad (R157, R220). -/
def decodeMessage : List Byte → Option Message
  | [kind, id, n1, n0, v, c] =>
    if sumBytes [kind, id, n1, n0, v, c] = Config.frameSum then messageOf kind id (word16 n1 n0) v
    else none
  | _ => none

/-- The fields of a received message, judged as R157 judges them, for a message whose bytes have
been read: a PREPARE for a rollback and a GO need a number from 1 to 65535. -/
def Message.wellFormed : Message → Bool
  | .prepare _ .rollback k => k != 0
  | .go _ n => n != 0
  | .prepare _ .take _ | .ready _ _ | .abandon _ | .done _ _ | .ask _ => true

end Sys2Proof
end

