-- ==== Sys2Proof/Machine/State.lean ====
section
/-! DEFINITION. The state of the EK412, block by block as 00_scope's block overview lists them,
as plain data, and the machine right after power-on reset. -/

namespace Sys2Proof.Machine

/-! ## Upstream port, admission queue, fence list (chapter 06) -/

/-- The class the window classifier gives an accepted request (R124). -/
inductive ReqClass
  | plain
  | guarded
deriving DecidableEq, Repr

/-- A request taken and classed: an item of the admission queue or the fence list (R127). -/
structure Accepted where
  tag  : Fin 64
  op   : LineOp
  line : Nat
  cls  : ReqClass
  seq  : Nat
deriving DecidableEq, Repr

/-- The statuses of an upstream response (R104, R121). -/
inductive UpStatus
  | ok
  | error
  | fenced
  | guard
  | range
  | protocol
deriving DecidableEq, Repr

/-- An item of the refusal queue (R121). -/
structure RefusalItem where
  tag    : Fin 64
  kind   : RwKind
  status : UpStatus
  seq    : Nat
deriving DecidableEq, Repr

/-- The upstream port and the admission side. -/
structure Upstream where
  /-- the request the master offers and the port has not yet taken (R115) -/
  offered   : Option HostRequest
  /-- the acceptance sequence of the next request taken (R116) -/
  nextSeq   : Nat
  /-- the live-tag set (R117) -/
  liveTags  : List (Fin 64)
  /-- the refusal queue, oldest first (R121) -/
  refusals  : List RefusalItem
  /-- the admission queue, head first (R127) -/
  queue     : List Accepted
  /-- the fence list, oldest first (R129) -/
  fenceList : List Accepted
  /-- the acceptance sequence of the item whose response is offered on the channel (R105) -/
  channel   : Option Nat
deriving DecidableEq, Repr

/-! ## Window classifier (R122, R123) -/

/-- One window of the window table (R123). -/
structure Window where
  enable : Bool
  base   : Nat
  count  : Nat
deriving DecidableEq, Repr

/-- The memory size and the window table. -/
structure Classifier where
  memSize : Nat
  windows : Vector Window 8
deriving DecidableEq, Repr

/-! ## Transaction tracker and preservation engine (chapters 05 and 03) -/

/-- The states of a tracker entry other than FREE (R91, R92). -/
inductive EntryState
  | blocked
  | logWait
  | capturing
  | recording
  | commitWait
  | issuing
  | done
deriving DecidableEq, Repr

/-- The state of the capture read, with the old data once captured (R52). -/
inductive Capture
  | pending
  | captured (old : LineData)
  | poisoned
deriving DecidableEq, Repr

/-- The state of one record write (R52). -/
inductive WriteState
  | absent
  | waiting
  | outstanding
  | acknowledged
  | failed
  | withdrawn
deriving DecidableEq, Repr

/-- The outcome a finish notice carries (R32). -/
inductive RecOutcome
  | written
  | poisoned
  | failed
deriving DecidableEq, Repr

/-- The record context of an entry that holds a reservation (R52). Its line is the entry's. -/
structure RecordCtx where
  position           : Position
  number             : CkptNumber
  capture            : Capture
  captureQuarantined : Bool
  header             : WriteState
  data               : WriteState
  failed             : Bool
  /-- record writes that timed out and whose tags are still quarantined -/
  quarantined        : Nat
  outcome            : Option RecOutcome
deriving DecidableEq, Repr

/-- A tracker entry that is not FREE (R91). Its reserved position is its context's; predecessor and
successor are its neighbours in its line chain, which is computed from the order of admission. -/
structure Entry where
  num      : Fin 32
  tag      : Fin 64
  op       : LineOp
  line     : Nat
  cls      : ReqClass
  seq      : Nat
  state    : EntryState
  /-- the data buffer of a READ, present from the read's end -/
  readData : Option LineData
  /-- the downstream tag while the entry's own request is granted and not ended -/
  dtag     : Option (Fin 32)
  /-- the response status, once known -/
  status   : Option UpStatus
  /-- quarantine hold (R101) -/
  hold     : Bool
  ctx      : Option RecordCtx
deriving DecidableEq, Repr

/-- A valid way of the preservation filter (R45). The filter lists its valid ways, oldest written
first; the set of a way is its line modulo 1024. -/
structure FilterWay where
  way   : Fin 4
  line  : Nat
  stamp : BitVec 16
deriving DecidableEq, Repr

/-! ## Log controller (chapter 02) -/

/-- The full policy (R28). -/
inductive Policy
  | stall
  | break
deriving DecidableEq, Repr

/-- The log settings, positions, recorded outcomes, wait list and stall clock. -/
structure Log where
  configured : Bool
  base       : Nat
  capacity   : Nat
  policy     : Policy
  /-- µs; 0 means no limit -/
  stallLimit : Nat
  watermark  : Nat
  tail       : Position
  head       : Position
  allocated  : Position
  /-- outcomes recorded for finished positions at or above head (R32) -/
  finished   : List (Position × RecOutcome)
  /-- entries in LOG_WAIT, in acceptance sequence (R37) -/
  waitList   : List (Fin 32)
  /-- µs the wait list has been non-empty (R40) -/
  stallClock : Nat
deriving DecidableEq, Repr

/-! ## Checkpoint controller (chapter 01) -/

/-- What caused a take (R1). -/
inductive Source
  | command
  | line
  | timer
  | cascade
deriving DecidableEq, Repr

/-- LIVE or BROKEN (R1). -/
inductive CkptState
  | live
  | broken
deriving DecidableEq, Repr

/-- A record of the checkpoint stack (R1). -/
structure CkptRecord where
  number  : CkptNumber
  mark    : Position
  state   : CkptState
  records : Nat
  source  : Source
deriving DecidableEq, Repr

/-- The kind of a long operation with its target (R7). -/
inductive Goal
  | take
  | rollback (target : CkptNumber)
deriving DecidableEq, Repr

/-- Why the controller is in HELD (R7). -/
inductive HeldReason
  | corrupt
  | interrupted
deriving DecidableEq, Repr

/-- The controller states with the parts they carry (R7). -/
inductive Ctrl
  | idle
  | settling (goal : Goal) (source : Source)
  | agreeing (goal : Goal) (source : Source)
  | restoring (target : CkptNumber)
  | held (reason : HeldReason)
deriving DecidableEq, Repr

/-- The checkpoint controller. -/
structure Controller where
  /-- the checkpoint stack, oldest first -/
  stack          : List CkptRecord
  nextNumber     : CkptNumber
  generation     : BitVec 16
  /-- raised or lowered (R6) -/
  fence          : Bool
  ctrl           : Ctrl
  lineFlag       : Bool
  timerFlag      : Bool
  cascadeFlag    : Bool
  lineEnable     : Bool
  autoTake       : Bool
  rolling        : Bool
  /-- the configured interval in ms; 0 stops the timer -/
  interval       : Nat
  /-- ms left until the interval expires (R18) -/
  intervalCount  : Nat
  /-- µs of the running millisecond already passed: the model's own (log 18) -/
  intervalMicros : Nat
  /-- the level of CKPT_REQ the edge detector last saw (R25) -/
  ckptLevel      : Bool
deriving DecidableEq, Repr

/-! ## Restore engine (chapter 04) -/

/-- What the restore engine waits for (R68). -/
inductive Stage
  | header
  | data
  | write
  | next
  | drain
deriving DecidableEq, Repr

/-- The walk context (R68). `header` is the header line as read; its fields are read from it. -/
structure Walk where
  target      : CkptNumber
  floor       : Position
  position    : Position
  stage       : Stage
  header      : Option LineData
  oldData     : Option LineData
  applied     : Nat
  /-- stopped as CORRUPT -/
  stopped     : Bool
  quarantined : Bool
deriving DecidableEq, Repr

/-- The restore engine: walk context, unrestored list and overflow count (R68, R69). -/
structure Restore where
  walk       : Option Walk
  unrestored : List Nat
  overflow   : Nat
deriving DecidableEq, Repr

/-! ## Downstream port (chapter 07) -/

/-- The requester classes (R138). -/
inductive DownClass
  | host
  | preserve
  | restore
deriving DecidableEq, Repr

/-- Who asked for a downstream request (R138, R150). -/
inductive Owner
  | host (entry : Fin 32)
  | capture (entry : Fin 32)
  | headerWrite (entry : Fin 32)
  | dataWrite (entry : Fin 32)
  | walkHeader
  | walkData
  | walkWrite
deriving DecidableEq, Repr

/-- A downstream request as its owner supplied it (R139). -/
structure DownReq where
  owner : Owner
  op    : LineOp
  line  : Nat
deriving DecidableEq, Repr

/-- A running timer in µs and the limit it read at its start; limit 0 never expires. -/
structure Timer where
  value : Nat
  limit : Nat
deriving DecidableEq, Repr

/-- The states of a tag that is not FREE (R141). The timer is absent while the request is offered
on the channel and not yet taken. -/
inductive TagState
  | outstanding (req : DownReq) (timer : Option Timer)
  | quarantined (kind : RwKind) (owner : Owner)
deriving DecidableEq, Repr

/-- A downstream tag that is not FREE. -/
structure TagUse where
  num   : Fin 32
  state : TagState
deriving DecidableEq, Repr

/-- The downstream port. -/
structure Downstream where
  hostReady     : List DownReq
  preserveReady : List DownReq
  restoreReady  : List DownReq
  tags          : List TagUse
  /-- the tag whose request is offered on the request channel (R143) -/
  channel       : Option (Fin 32)
  turn          : DownClass
  used          : Nat
  limit         : Nat
  wHost         : Nat
  wPreserve     : Nat
  wRestore      : Nat
  /-- µs; 0 means no timeout -/
  timeout       : Nat
deriving DecidableEq, Repr

/-! ## Cascade controller (chapter 08) -/

/-- The cascade roles (R155). -/
inductive Role
  | solo
  | leader
  | follower
deriving DecidableEq, Repr

/-- What is known of the READY from below (R161, R166, R167). -/
inductive BelowReady
  | awaited
  | ok
  | refused
  | notNeeded
deriving DecidableEq, Repr

/-- The READY a follower has sent for its agreement (R167). -/
inductive ReadySent
  | none
  | ok
  | refuse
deriving DecidableEq, Repr

/-- The agreement record of a leader (R161) or a follower (R166). -/
structure Agreement where
  id         : OpId
  goal       : Goal
  source     : Source
  /-- local phase: SETTLED -/
  settled    : Bool
  below      : BelowReady
  readySent  : ReadySent
  /-- GO sent (leader) or taken (follower) -/
  go         : Bool
  /-- the local or own outcome -/
  own        : Option DoneOutcome
  /-- the below outcome -/
  belowDone  : Option DoneOutcome
  /-- the number a leader pushed -/
  pushed     : Option CkptNumber
  /-- the local walk's records applied and lines unrestored -/
  applied    : Nat
  unrestored : Nat
  /-- the agreement timer or the hold timer -/
  timer      : Option Timer
deriving DecidableEq, Repr

/-- The cascade controller. -/
structure Cascade where
  role           : Role
  last           : Bool
  agreementLimit : Nat
  holdLimit      : Nat
  opId           : OpId
  agreement      : Option Agreement
  abandoned      : Option OpId
  lastRefusal    : Option RefuseReason
  badCount       : Nat
  upList         : List Message
  downList       : List Message
deriving DecidableEq, Repr

/-! ## Management port (chapters 09 and 10) -/

/-- The frame decoder (R176, R202): waiting for a transaction; in the request phase; after an
executed frame (turnaround, response, tail); waiting for MCS_N to rise after a reset. -/
inductive Decoder
  | waiting
  | request
  | answered
  | ignoring
deriving DecidableEq, Repr

/-- The status and payload of a response frame (R176). -/
structure Response where
  status  : Byte
  payload : List Byte
deriving DecidableEq, Repr

/-- The eight counters, in the order of R197 (R209). -/
structure Counters where
  protectedWrites     : BitVec 32
  filterHits          : BitVec 32
  recordsWritten      : BitVec 32
  filterDisplacements : BitVec 32
  fenceDeferrals      : BitVec 32
  stallTime           : BitVec 32
  triggersMerged      : BitVec 32
  downstreamTimeouts  : BitVec 32
deriving DecidableEq, Repr

/-- The outcomes of the operation result record (R212). -/
inductive ResultOutcome
  | done
  | partly
  | corrupt
  | refused
  | timeout
  | split
  | interrupted
  | missed
deriving DecidableEq, Repr

/-- The operation result record when it is not EMPTY (R212). -/
structure OpResult where
  kind       : OpKind
  source     : Source
  outcome    : ResultOutcome
  number     : Option CkptNumber
  applied    : Nat
  unrestored : Nat
  cascadeId  : Option OpId
deriving DecidableEq, Repr

/-- The management port. -/
structure Mgmt where
  decoder     : Decoder
  /-- MCS_N is low -/
  mcsLow      : Bool
  /-- a WARM_RESET has executed in the open transaction (R201) -/
  warmPending : Bool
  /-- the response built for the last frame executed -/
  response    : Option Response
  /-- bit n is the latch of the cause of order n (R203) -/
  latches     : BitVec 10
  /-- a set bit masks its cause (R207) -/
  mask        : BitVec 10
  counters    : Counters
  result      : Option OpResult
deriving DecidableEq, Repr

/-- The reset lines, and the µs passed of the reset WARM_RESET causes (R201). -/
structure Pins where
  porstLow     : Bool
  wrstLow      : Bool
  commandReset : Option Nat
deriving DecidableEq, Repr

/-- The whole unit, and the queue of commands that wait. -/
structure State where
  up      : Upstream
  cls     : Classifier
  entries : List Entry
  filter  : List FilterWay
  log     : Log
  ckpt    : Controller
  restore : Restore
  down    : Downstream
  casc    : Cascade
  mgmt    : Mgmt
  pins    : Pins
  pending : List Instr
deriving DecidableEq, Repr

/-- The reasons a step can stop with a fault: none. The EK412 has no event that stops it; what
goes wrong is reported in its state (R104, R179, R203, R212). Nobody raises one: safe. -/
inductive Fault
deriving DecidableEq, Repr

/-- The reasons a command can be refused by the model. -/
inductive Refusal
  /-- The command of this mnemonic has no meaning in the model yet. Raised by an arm of exec alone;
  safe. No arm raises it. -/
  | notModelled (mnemonic : String)
deriving DecidableEq, Repr

/-! ## After power-on reset -/

/-- The upstream port and admission side after power-on reset (R136). -/
def Upstream.reset : Upstream where
  offered := none
  nextSeq := 0
  liveTags := []
  refusals := []
  queue := []
  fenceList := []
  channel := none

/-- The classifier after power-on reset (R136). -/
def Classifier.reset : Classifier where
  memSize := Config.maxLines
  windows := Vector.replicate 8 ⟨false, 0, 0⟩

/-- The log controller after power-on reset (R44). -/
def Log.reset : Log where
  configured := false
  base := 0
  capacity := 0
  policy := .stall
  stallLimit := 1000
  watermark := 0
  tail := 0
  head := 0
  allocated := 0
  finished := []
  waitList := []
  stallClock := 0

/-- The checkpoint controller after power-on reset (R25). -/
def Controller.reset : Controller where
  stack := []
  nextNumber := 1
  generation := 0
  fence := false
  ctrl := .idle
  lineFlag := false
  timerFlag := false
  cascadeFlag := false
  lineEnable := false
  autoTake := false
  rolling := false
  interval := 0
  intervalCount := 0
  intervalMicros := 0
  ckptLevel := false

/-- The restore engine after power-on reset (R90). -/
def Restore.reset : Restore where
  walk := none
  unrestored := []
  overflow := 0

/-- The downstream port after power-on reset (R153). -/
def Downstream.reset : Downstream where
  hostReady := []
  preserveReady := []
  restoreReady := []
  tags := []
  channel := none
  turn := .host
  used := 0
  limit := 16
  wHost := 8
  wPreserve := 4
  wRestore := 4
  timeout := 2000

/-- The cascade controller after power-on reset (R174). -/
def Cascade.reset : Cascade where
  role := .solo
  last := false
  agreementLimit := 500
  holdLimit := 2000
  opId := 0
  agreement := none
  abandoned := none
  lastRefusal := none
  badCount := 0
  upList := []
  downList := []

/-- All eight counters at 0 (R209). -/
def Counters.zero : Counters := ⟨0, 0, 0, 0, 0, 0, 0, 0⟩

/-- The management port after power-on reset (R202, R216). -/
def Mgmt.reset : Mgmt where
  decoder := .waiting
  mcsLow := false
  warmPending := false
  response := none
  latches := 0
  mask := BitVec.allOnes 10
  counters := Counters.zero
  result := none

/-- The reset lines released, no command reset running. -/
def Pins.released : Pins := ⟨false, false, none⟩

/-- The unit right after power-on reset, its lines released, no command waiting. -/
def State.reset : State where
  up := .reset
  cls := .reset
  entries := []
  filter := []
  log := .reset
  ckpt := .reset
  restore := .reset
  down := .reset
  casc := .reset
  mgmt := .reset
  pins := .released
  pending := []

/-! ## Updates, one per block -/

/-- Change the upstream port. -/
def State.onUp (s : State) (f : Upstream → Upstream) : State := { s with up := f s.up }
/-- Change the classifier. -/
def State.onCls (s : State) (f : Classifier → Classifier) : State := { s with cls := f s.cls }
/-- Change the tracker entries. -/
def State.onEntries (s : State) (f : List Entry → List Entry) : State := { s with entries := f s.entries }
/-- Change the preservation filter. -/
def State.onFilter (s : State) (f : List FilterWay → List FilterWay) : State := { s with filter := f s.filter }
/-- Change the log controller. -/
def State.onLog (s : State) (f : Log → Log) : State := { s with log := f s.log }
/-- Change the checkpoint controller. -/
def State.onCkpt (s : State) (f : Controller → Controller) : State := { s with ckpt := f s.ckpt }
/-- Change the restore engine. -/
def State.onRestore (s : State) (f : Restore → Restore) : State := { s with restore := f s.restore }
/-- Change the downstream port. -/
def State.onDown (s : State) (f : Downstream → Downstream) : State := { s with down := f s.down }
/-- Change the cascade controller. -/
def State.onCasc (s : State) (f : Cascade → Cascade) : State := { s with casc := f s.casc }
/-- Change the management port. -/
def State.onMgmt (s : State) (f : Mgmt → Mgmt) : State := { s with mgmt := f s.mgmt }
/-- Change the reset lines. -/
def State.onPins (s : State) (f : Pins → Pins) : State := { s with pins := f s.pins }

end Sys2Proof.Machine
end

