-- ==== Sys2Proof/Machine/Flags.lean ====
section
/-! DEFINITION. Alert latches, ALERT_N and the counters (chapter 10). -/

namespace Sys2Proof.Machine

/-- The ten alert causes (R203). -/
inductive AlertCause
  | takeDone
  | rollbackDone
  | checkpointsBroken
  | logHigh
  | logStalled
  | capturePoisoned
  | triggerMissed
  | lineProtocol
  | downstreamFault
  | cascadeFault
deriving DecidableEq, Repr

/-- The order of a cause in READ_STATUS and the mask (R203). -/
def causeOrder : AlertCause → Nat
  | .takeDone => 0
  | .rollbackDone => 1
  | .checkpointsBroken => 2
  | .logHigh => 3
  | .logStalled => 4
  | .capturePoisoned => 5
  | .triggerMissed => 6
  | .lineProtocol => 7
  | .downstreamFault => 8
  | .cascadeFault => 9

/-- The set that holds one cause. -/
def causeBit (c : AlertCause) : BitVec 10 := 1#10 <<< causeOrder c

/-- Latch a cause, whatever the mask; a latched cause stays latched (R203). -/
def latch (c : AlertCause) (s : State) : State :=
  s.onMgmt fun m => { m with latches := m.latches ||| causeBit c }

/-- Latch a cause if b. -/
def latchIf (b : Bool) (c : AlertCause) (s : State) : State := if b then latch c s else s

/-- A cause is LATCHED. -/
def latched (c : AlertCause) (s : State) : Bool := s.mgmt.latches.getLsbD (causeOrder c)

/-- ALERT_N is asserted: some cause is latched and not masked, and PORST_N is not asserted (R207). -/
def alertAsserted (s : State) : Bool :=
  !s.pins.porstLow && (s.mgmt.latches &&& ~~~ s.mgmt.mask) != 0

/-- One more, staying at the maximum (R209). -/
def satInc (c : BitVec 32) : BitVec 32 := if c = BitVec.allOnes 32 then c else c + 1

/-- n more, one at a time (R209). -/
def satAdd (c : BitVec 32) (n : Nat) : BitVec 32 := BitVec.ofNat 32 (min (c.toNat + n) (2 ^ 32 - 1))

/-- Change the counters. -/
def onCounters (f : Counters → Counters) (s : State) : State :=
  s.onMgmt fun m => { m with counters := f m.counters }

/-- PROTECTED_WRITES + 1 (R53). -/
def countProtectedWrite : State → State :=
  onCounters fun c => { c with protectedWrites := satInc c.protectedWrites }
/-- FILTER_HITS + 1 (R54). -/
def countFilterHit : State → State :=
  onCounters fun c => { c with filterHits := satInc c.filterHits }
/-- RECORDS_WRITTEN + 1 (R33). -/
def countRecordWritten : State → State :=
  onCounters fun c => { c with recordsWritten := satInc c.recordsWritten }
/-- FILTER_DISPLACEMENTS + 1 (R50). -/
def countDisplacement : State → State :=
  onCounters fun c => { c with filterDisplacements := satInc c.filterDisplacements }
/-- FENCE_DEFERRALS + 1 (R130). -/
def countDeferral : State → State :=
  onCounters fun c => { c with fenceDeferrals := satInc c.fenceDeferrals }
/-- STALL_TIME + n (R40). -/
def countStallTime (n : Nat) : State → State :=
  onCounters fun c => { c with stallTime := satAdd c.stallTime n }
/-- TRIGGERS_MERGED + n (R211). -/
def countMerged (n : Nat) : State → State :=
  onCounters fun c => { c with triggersMerged := satAdd c.triggersMerged n }
/-- DOWNSTREAM_TIMEOUTS + 1 (R148). -/
def countTimeout : State → State :=
  onCounters fun c => { c with downstreamTimeouts := satInc c.downstreamTimeouts }

end Sys2Proof.Machine
end

