-- ==== Sys2Proof/Machine/Operands.lean ====
section
/-! DEFINITION. The undo record: the layout of its header line (R59, R217) and its check value
(R218); and the parts of a line-port operation. -/

namespace Sys2Proof.Machine

/-- The kind of a line operation. -/
def opKind : LineOp → RwKind
  | .read => .read
  | .write _ _ => .write

/-- A WRITE whose byte mask is all zero (R102). -/
def emptyMask : LineOp → Bool
  | .read => false
  | .write mask _ => mask == 0

/-- A WRITE of a whole line, with all 64 bytes enabled. -/
def fullWrite (d : LineData) : LineOp := .write (BitVec.allOnes 64) d

/-! ## The check value (R218) -/

/-- The register after the lowest n bits of x, taken from bit n - 1 down: compare the top bit with
the message bit, shift, exclusive-or with the generator if they differed. -/
def crcFold {w : Nat} (x : BitVec w) : Nat → BitVec 32 → BitVec 32
  | 0, r => r
  | n + 1, r =>
    if r.msb = x.getLsbD n then crcFold x n (r <<< 1)
    else crcFold x n ((r <<< 1) ^^^ Config.crcGenerator)

/-- The CRC-32 of the bytes of x, the first byte on top. -/
def crc32 {w : Nat} (x : BitVec w) : BitVec 32 := ~~~ crcFold x w (BitVec.allOnes 32)

/-! ## The header line (R217) -/

/-- Header bytes 0 to 55 of a record. -/
def headerTop (poisoned : Bool) (number : CkptNumber) (position : Position) (line : Nat) :
    BitVec 448 :=
  Config.formatMark ++ (if poisoned then 1#8 else 0#8) ++ 0#24 ++ number ++ 0#16 ++ position
    ++ BitVec.ofNat 40 line ++ 0#280

/-- A header line from its bytes 0 to 55 and its check value. -/
def headerLine (top : BitVec 448) (check : BitVec 32) : LineData := top ++ check ++ 0#32

/-- Bytes 0 to 55 of a header line. -/
def headerTopOf (h : LineData) : BitVec 448 := h.extractLsb' 64 448
/-- The format mark, bytes 0 to 3. -/
def headerMark (h : LineData) : BitVec 32 := h.extractLsb' 480 32
/-- The flags, byte 4. -/
def headerFlags (h : LineData) : Byte := h.extractLsb' 472 8
/-- The checkpoint number, bytes 8 to 9. -/
def headerNumber (h : LineData) : CkptNumber := h.extractLsb' 432 16
/-- The position, bytes 12 to 15. -/
def headerPosition (h : LineData) : Position := h.extractLsb' 384 32
/-- The line address, bytes 16 to 20, read as a 40-bit value. -/
def headerAddr (h : LineData) : Nat := (h.extractLsb' 344 40).toNat
/-- The check value, bytes 56 to 59. -/
def headerCheck (h : LineData) : BitVec 32 := h.extractLsb' 32 32
/-- The header of a poisoned record. -/
def headerPoisoned (h : LineData) : Bool := headerFlags h == 1

/-- The check value of a record that is not poisoned: over header bytes 0 to 55 and the 64 data
bytes (R218). -/
def recordCheck (top : BitVec 448) (old : LineData) : BitVec 32 := crc32 (top ++ old)

/-- The header line the preservation engine assembles (R59, R217): with old data, or poisoned. -/
def assembleHeader (number : CkptNumber) (position : Position) (line : Nat) :
    Option LineData → LineData
  | some old =>
    let top := headerTop false number position line
    headerLine top (recordCheck top old)
  | none =>
    let top := headerTop true number position line
    headerLine top (crc32 top)

end Sys2Proof.Machine
end

