-- ==== Sys2Proof/Machine/Ops.lean ====
section
/-! DEFINITION. The shared operations of the tracker, the log controller and the preservation
engine (chapters 05, 02 and 03). Each is a total function on states. -/

namespace Sys2Proof.Machine

/-! ## Tracker entries and line chains -/

/-- The entry of a number, none while it is FREE. -/
def entryAt (n : Fin 32) (s : State) : Option Entry := s.entries.find? fun e => e.num == n

/-- Change the entry of a number. -/
def modEntry (n : Fin 32) (f : Entry → Entry) (s : State) : State :=
  s.onEntries fun es => es.map fun e => if e.num = n then f e else e

/-- The record context of an entry. -/
def ctxAt (n : Fin 32) (s : State) : Option RecordCtx := (entryAt n s).bind Entry.ctx

/-- Change the record context of an entry. -/
def modCtx (n : Fin 32) (f : RecordCtx → RecordCtx) (s : State) : State :=
  modEntry n (fun e => { e with ctx := e.ctx.map f }) s

/-- The line chain of a line, oldest admission first (R94). -/
def chain (line : Nat) (es : List Entry) : List Entry := es.filter fun e => e.line == line

/-- The next older entry of an entry's line chain (R91). -/
def predecessor (e : Entry) (es : List Entry) : Option Entry :=
  ((chain e.line es).takeWhile fun x => x.num != e.num).getLast?

/-- The next newer entry of an entry's line chain (R91). -/
def successor (e : Entry) (es : List Entry) : Option Entry :=
  (((chain e.line es).dropWhile fun x => x.num != e.num).drop 1).head?

/-- The lowest-numbered FREE entry (R93). -/
def freeEntry (s : State) : Option (Fin 32) :=
  (List.finRange 32).find? fun n => s.entries.all fun e => e.num != n

/-- An entry is DONE with a response status. -/
def setDone (n : Fin 32) (st : UpStatus) (s : State) : State :=
  modEntry n (fun e => { e with state := .done, status := some st }) s

/-- The line lies inside an enabled window (R124). -/
def inWindow (line : Nat) (c : Classifier) : Bool :=
  c.windows.toList.any fun w => w.enable && decide (w.base ≤ line) && decide (line < w.base + w.count)

/-- The tracker is settled: no PROTECTED entry in a state other than FREE or DONE (R109). -/
def settled (s : State) : Bool := s.entries.all fun e => e.cls == .plain || e.state == .done

/-- The stronger condition of a rollback's settle: every PROTECTED entry FREE, and every PLAIN entry
naming a line inside an enabled window FREE or DONE (R72). -/
def rollbackSettled (s : State) : Bool :=
  s.entries.all fun e => e.cls == .plain && (!inWindow e.line s.cls || e.state == .done)

/-! ## Checkpoints and positions, as other blocks read them -/

/-- The current checkpoint: the newest record (R1). -/
def currentCkpt (s : State) : Option CkptRecord := s.ckpt.stack.getLast?

/-- Preservation is active (R1). -/
def preserving (s : State) : Bool :=
  match currentCkpt s with
  | some c => c.state == .live
  | none => false

/-- The record of a checkpoint number. -/
def findCkpt (k : CkptNumber) (s : State) : Option CkptRecord :=
  s.ckpt.stack.find? fun c => c.number == k

/-- The controller is in SETTLING(ROLLBACK). -/
def rollbackSettling (s : State) : Bool :=
  match s.ckpt.ctrl with
  | .settling (.rollback _) _ => true
  | _ => false

/-- Occupancy: allocated minus tail (R30). -/
def occupancy (l : Log) : Nat := (l.allocated - l.tail).toNat

/-- The log is full (R30). -/
def logFull (s : State) : Bool := occupancy s.log == s.log.capacity

/-- Head has passed a reserved position: it is no longer among the positions from head to
allocated. For positions tail has not passed this is "below head" (R62, log 8). -/
def pastHead (p : Position) (l : Log) : Bool :=
  !decide ((p - l.head).toNat < (l.allocated - l.head).toNat)

/-- The header line address of a position's slot (R27). -/
def headerAddress (p : Position) (l : Log) : Nat := l.base + 2 * (p.toNat % l.capacity)

/-- The data line address of a position's slot (R27). -/
def dataAddress (p : Position) (l : Log) : Nat := headerAddress p l + 1

/-! ## Ready lists (R138) -/

/-- A HOST request joins its ready list. -/
def pushHost (r : DownReq) (s : State) : State :=
  s.onDown fun d => { d with hostReady := d.hostReady ++ [r] }
/-- A PRESERVE request joins its ready list. -/
def pushPreserve (r : DownReq) (s : State) : State :=
  s.onDown fun d => { d with preserveReady := d.preserveReady ++ [r] }
/-- A RESTORE request joins its ready list. -/
def pushRestore (r : DownReq) (s : State) : State :=
  s.onDown fun d => { d with restoreReady := d.restoreReady ++ [r] }

/-- An entry enters ISSUING and requests its one HOST request (R99). -/
def issue (n : Fin 32) (s : State) : State :=
  match entryAt n s with
  | none => s
  | some e =>
    pushHost ⟨.host n, e.op, e.line⟩ (modEntry n (fun e => { e with state := .issuing }) s)

/-! ## The preservation filter (R45 to R50) -/

/-- The set of a line (R45). -/
def filterSet (line : Nat) : Nat := line % Config.filterSets

/-- The valid ways of a line's set, oldest written first: the set's insertion order (R45). -/
def setWays (line : Nat) (f : List FilterWay) : List FilterWay :=
  f.filter fun w => filterSet w.line == filterSet line

/-- The lookup hits: a current way names the line (R48). -/
def filterHit (line : Nat) (s : State) : Bool :=
  s.filter.any fun w => w.line == line && w.stamp == s.ckpt.generation

/-- The way an insert writes, and whether it is a displacement: the first case of R49 that
applies to the ways of the line's set. -/
def victim (line : Nat) (generation : BitVec 16) (ways : List FilterWay) : Fin 4 × Bool :=
  match ways.find? (fun w => w.line == line) with
  | some w => (w.way, false)
  | none =>
    match (List.finRange 4).find? (fun i => ways.all fun w => w.way != i) with
    | some i => (i, false)
    | none =>
      match ways.find? (fun w => w.stamp != generation) with
      | some w => (w.way, false)
      | none =>
        match ways.head? with
        | some w => (w.way, true)
        | none => (0, false)

/-- An insert of a line (R49, R50). -/
def filterInsert (line : Nat) (s : State) : State :=
  let v := victim line s.ckpt.generation (setWays line s.filter)
  let s := s.onFilter fun f =>
    f.filter (fun w => !(filterSet w.line == filterSet line && w.way == v.1))
      ++ [⟨v.1, line, s.ckpt.generation⟩]
  if v.2 then countDisplacement s else s

/-! ## Reservation, wait list, break (R31, R37 to R39, R16) -/

/-- The record context of a reservation (R55). -/
def freshCtx (p : Position) (number : CkptNumber) : RecordCtx where
  position := p
  number := number
  capture := .pending
  captureQuarantined := false
  header := .absent
  data := .absent
  failed := false
  quarantined := 0
  outcome := none

/-- A reservation for an entry: the position is handed out, the context created, the capture read
requested, and LOG_HIGH latched at the watermark (R31, R42, R55). -/
def reserve (n : Fin 32) (s : State) : State :=
  match entryAt n s, currentCkpt s with
  | some e, some c =>
    let p := s.log.allocated
    let s := s.onLog fun l => { l with allocated := l.allocated + 1 }
    let s := modEntry n (fun e => { e with state := .capturing, ctx := some (freshCtx p c.number) }) s
    let s := pushPreserve ⟨.capture n, .read, e.line⟩ s
    latchIf (occupancy s.log == s.log.watermark) .logHigh s
  | _, _ => s

/-- The acceptance sequence of an entry. -/
def seqOf (n : Fin 32) (s : State) : Nat := ((entryAt n s).map Entry.seq).getD 0

/-- An entry joins the wait list in acceptance sequence; on an empty list LOG_STALLED is latched
and the stall clock starts (R36, R37, R40). -/
def joinWaitList (n : Fin 32) (s : State) : State :=
  let older := fun m => decide (seqOf m s ≤ seqOf n s)
  let first := s.log.waitList.isEmpty
  let s := modEntry n (fun e => { e with state := .logWait }) s
  let s := s.onLog fun l =>
    { l with
      waitList := l.waitList.takeWhile older ++ n :: l.waitList.dropWhile older
      stallClock := if first then 0 else l.stallClock }
  latchIf first .logStalled s

/-- Every waiting entry goes to ISSUING without a record, in list order; the list empties and the
stall clock stops (R38, R39). -/
def issueWaiting (s : State) : State :=
  (s.log.waitList.foldl (fun s n => issue n s) s).onLog fun l =>
    { l with waitList := [], stallClock := 0 }

/-- Waiting entries reserve in list order for as long as the log is not full (R38). -/
def reserveWaiting : Nat → State → State
  | 0, s => s
  | k + 1, s =>
    match s.log.waitList with
    | [] => s
    | n :: rest =>
      if logFull s then s
      else reserveWaiting k (reserve n (s.onLog fun l => { l with waitList := rest }))

/-- The stall clock stops, and returns to 0, when the wait list is empty (R40). -/
def stopClockIfEmpty (s : State) : State :=
  s.onLog fun l => { l with stallClock := if l.waitList.isEmpty then 0 else l.stallClock }

/-- The service of the wait list after a release has moved tail (R38). -/
def serveWaitList (s : State) : State :=
  if preserving s then stopClockIfEmpty (reserveWaiting s.log.waitList.length s)
  else issueWaiting s

/-- Mark every LIVE record BROKEN. -/
def markBroken (s : State) : State :=
  s.onCkpt fun c => { c with stack := c.stack.map fun r => { r with state := .broken } }

/-- A break (R16, R39): if a record is LIVE, every LIVE record becomes BROKEN, CHECKPOINTS_BROKEN
is latched and the waiting entries go to ISSUING; else nothing changes. -/
def breakAll (s : State) : State :=
  if s.ckpt.stack.any fun r => r.state == .live then
    issueWaiting (latch .checkpointsBroken (markBroken s))
  else s

/-! ## Eligibility and the preservation step (R53, R95, R98) -/

/-- The preservation step of a protected write with a non-empty mask (R53, R36). -/
def preservationStep (e : Entry) (s : State) : State :=
  let s := countProtectedWrite s
  if preserving s = false then issue e.num s
  else if filterHit e.line s then issue e.num (countFilterHit s)
  else if logFull s = false then reserve e.num s
  else if rollbackSettling s then setDone e.num .fenced s
  else
    match s.log.policy with
    | .stall => joinWaitList e.num s
    | .break => issue e.num (breakAll s)

/-- The eligibility action of an entry (R98, R102). -/
def eligible (e : Entry) (s : State) : State :=
  match e.op with
  | .read => issue e.num s
  | .write mask _ =>
    if mask = 0 then setDone e.num .ok s
    else
      match e.cls with
      | .plain => issue e.num s
      | .guarded => preservationStep e s

/-- The entry of a line that is eligible next: the oldest not DONE, if it is BLOCKED (R94, R95). -/
def nextEligible (line : Nat) (s : State) : Option Entry :=
  match (chain line s.entries).find? fun e => e.state != .done with
  | some e => if e.state = .blocked then some e else none
  | none => none

/-- Entries of a line take their eligibility actions along the chain, until one is left active or
none is BLOCKED (R95). -/
def runChain (line : Nat) : Nat → State → State
  | 0, s => s
  | k + 1, s =>
    match nextEligible line s with
    | none => s
    | some e => runChain line k (eligible e s)

/-- Release the successors of a line's DONE entries (R95); a chain holds at most 32 entries. -/
def releaseChain (line : Nat) (s : State) : State := runChain line Config.trackerCap s

/-- An entry reaches DONE with a status and releases its successor (R95, R100). -/
def finishEntry (n : Fin 32) (st : UpStatus) (s : State) : State :=
  match entryAt n s with
  | none => s
  | some e => releaseChain e.line (setDone n st s)

/-- Every waiting entry goes to DONE with FENCED in list order, each releasing its successor; the
stall clock stops (R39, R111). -/
def fenceWaiting (s : State) : State :=
  s.log.waitList.foldl (fun s n => finishEntry n .fenced s)
    (s.onLog fun l => { l with waitList := [], stallClock := 0 })

/-! ## Finish notices and the committed head (R32, R33) -/

/-- Change the current checkpoint's record. -/
def modCurrent (f : CkptRecord → CkptRecord) (stack : List CkptRecord) : List CkptRecord :=
  stack.dropLast ++ (stack.getLast?.map f).toList

/-- Head passes one position that finished with an outcome (R33, R3). -/
def passHead (o : RecOutcome) (s : State) : State :=
  let s := s.onCkpt fun c =>
    { c with stack := modCurrent (fun r => { r with records := min (r.records + 1) Config.recordsMax }) c.stack }
  let s := if o = .failed then s else countRecordWritten s
  let empty := s.ckpt.stack.isEmpty
  s.onLog fun l =>
    { l with
      finished := l.finished.filter fun x => x.1 != l.head
      head := l.head + 1
      tail := if empty then l.head + 1 else l.tail }

/-- Head advances over finished positions, at most k of them, stopping at the first unfinished
one or at allocated (R33). -/
def advanceHead : Nat → State → State
  | 0, s => s
  | k + 1, s =>
    if s.log.head = s.log.allocated then s
    else
      match s.log.finished.find? fun x => x.1 == s.log.head with
      | none => s
      | some x => advanceHead k (passHead x.2 s)

/-- An entry may leave COMMIT_WAIT: head has passed its position and its capture is not
quarantined (R62). -/
def mayExit (n : Fin 32) (s : State) : Bool :=
  match entryAt n s with
  | some e =>
    e.state == .commitWait &&
      (match e.ctx with
       | some c => pastHead c.position s.log && !c.captureQuarantined
       | none => false)
  | none => false

/-- An entry leaves COMMIT_WAIT: the filter insert if due, the context discarded, the write
forwarded (R63). -/
def leaveCommitWait (n : Fin 32) (s : State) : State :=
  match entryAt n s with
  | none => s
  | some e =>
    let recorded := match e.ctx with
      | some c => c.outcome == some .written || c.outcome == some .poisoned
      | none => false
    let s := if preserving s && recorded then filterInsert e.line s else s
    issue n (modEntry n (fun e => { e with ctx := none }) s)

/-- Leave COMMIT_WAIT if R62 allows. -/
def exitIfReady (n : Fin 32) (s : State) : State := if mayExit n s then leaveCommitWait n s else s

/-- The finish notice of an entry's record: COMMIT_WAIT, the outcome recorded, the head advance,
and the entry's own exit in the same step where it is due (R32, R33, R60, R61). -/
def finishRecord (n : Fin 32) (o : RecOutcome) (s : State) : State :=
  match ctxAt n s with
  | none => s
  | some c =>
    let s := modEntry n (fun e => { e with state := .commitWait }) s
    let s := modCtx n (fun c => { c with outcome := some o }) s
    let s := s.onLog fun l => { l with finished := l.finished ++ [(c.position, o)] }
    exitIfReady n (advanceHead s.log.finished.length s)

/-! ## Capture and record writes (R57 to R61) -/

/-- The request of a record's header write (R59, R139). -/
def headerWriteReq (e : Entry) (c : RecordCtx) (old : Option LineData) (l : Log) : DownReq :=
  ⟨.headerWrite e.num, fullWrite (assembleHeader c.number c.position e.line old),
    headerAddress c.position l⟩

/-- The request of a record's data write (R57, R139). -/
def dataWriteReq (e : Entry) (c : RecordCtx) (old : LineData) (l : Log) : DownReq :=
  ⟨.dataWrite e.num, fullWrite old, dataAddress c.position l⟩

/-- The capture read ends OK: the old data is kept and both record writes become ready, header
first (R57). -/
def captureOk (n : Fin 32) (old : LineData) (s : State) : State :=
  match entryAt n s with
  | none => s
  | some e =>
    match e.ctx with
    | none => s
    | some c =>
      let s := modEntry n (fun e => { e with state := .recording, dtag := none }) s
      let s := modCtx n (fun c =>
        { c with capture := .captured old, header := .waiting, data := .waiting }) s
      pushPreserve (dataWriteReq e c old s.log) (pushPreserve (headerWriteReq e c (some old) s.log) s)

/-- The capture read ends in ERROR or by timeout: the record is poisoned and only its header write
becomes ready (R58). -/
def capturePoison (n : Fin 32) (timedOut : Bool) (s : State) : State :=
  match entryAt n s with
  | none => s
  | some e =>
    match e.ctx with
    | none => s
    | some c =>
      let s := latch .capturePoisoned s
      let s := modEntry n (fun e => { e with state := .recording, dtag := none }) s
      let s := modCtx n (fun c =>
        { c with capture := .poisoned, captureQuarantined := timedOut, header := .waiting }) s
      pushPreserve (headerWriteReq e c none s.log) s

/-- Which of the two record writes. -/
inductive RecWrite
  | header
  | data
deriving DecidableEq, Repr

/-- The state of a record write. -/
def writeStateOf (w : RecWrite) (c : RecordCtx) : WriteState :=
  match w with
  | .header => c.header
  | .data => c.data

/-- Set the state of a record write. -/
def setWriteState (w : RecWrite) (st : WriteState) (c : RecordCtx) : RecordCtx :=
  match w with
  | .header => { c with header := st }
  | .data => { c with data := st }

/-- A write that is WAITING or OUTSTANDING has not ended. -/
def writePending (st : WriteState) : Bool := st == .waiting || st == .outstanding

/-- The finish notice if the record has come to its end: all requested writes acknowledged (R60),
or failed with no write left and no record write quarantined (R61). -/
def endRecord (n : Fin 32) (s : State) : State :=
  match ctxAt n s with
  | none => s
  | some c =>
    if c.outcome.isSome then s
    else if c.failed then
      if writePending c.header || writePending c.data || c.quarantined != 0 then s
      else finishRecord n .failed s
    else if c.header == .acknowledged && (c.data == .acknowledged || c.data == .absent) then
      finishRecord n (if c.capture = .poisoned then .poisoned else .written) s
    else s

/-- A record write is acknowledged OK (R60). -/
def recordWriteOk (n : Fin 32) (w : RecWrite) (s : State) : State :=
  endRecord n (modCtx n (setWriteState w .acknowledged) s)

/-- The writes of a record that are still on the PRESERVE ready list are withdrawn (R140). -/
def withdrawWaiting (n : Fin 32) (s : State) : State :=
  let s := s.onDown fun d =>
    { d with preserveReady := d.preserveReady.filter fun r =>
        r.owner != .headerWrite n && r.owner != .dataWrite n }
  modCtx n (fun c =>
    { c with
      header := if c.header = .waiting then .withdrawn else c.header
      data := if c.data = .waiting then .withdrawn else c.data }) s

/-- A record write ends in ERROR or by timeout (R61): the first failure of the record requests the
break and withdraws the other write if it still waits. -/
def recordWriteBad (n : Fin 32) (w : RecWrite) (timedOut : Bool) (s : State) : State :=
  match ctxAt n s with
  | none => s
  | some c =>
    let s := modCtx n (fun c =>
      { setWriteState w .failed c with
        failed := true
        quarantined := c.quarantined + (if timedOut then 1 else 0) }) s
    let s := if c.failed then s else withdrawWaiting n (breakAll s)
    endRecord n s

/-- The tag of a timed-out capture read is freed: the mark clears, and the entry leaves COMMIT_WAIT
if it now may (R58, R62). -/
def captureFreed (n : Fin 32) (s : State) : State :=
  exitIfReady n (modCtx n (fun c => { c with captureQuarantined := false }) s)

/-- The tag of a timed-out record write is freed (R61, R149). -/
def recordWriteFreed (n : Fin 32) (s : State) : State :=
  endRecord n (modCtx n (fun c => { c with quarantined := c.quarantined - 1 }) s)

/-! ## Checkpoint stack (R2, R4, R5, R14) -/

/-- The fence is raised (R6). -/
def raiseFence (s : State) : State := s.onCkpt fun c => { c with fence := true }
/-- The fence is lowered (R6). -/
def lowerFence (s : State) : State := s.onCkpt fun c => { c with fence := false }
/-- The controller state. -/
def setCtrl (k : Ctrl) (s : State) : State := s.onCkpt fun c => { c with ctrl := k }
/-- The fence is lowered and the controller returns to IDLE. -/
def standDown (s : State) : State := setCtrl .idle (lowerFence s)

/-- The generation steps; when it passes from 65535 to 0 every filter way is invalidated (R5, R47). -/
def stepGeneration (s : State) : State :=
  let s := s.onCkpt fun c => { c with generation := c.generation + 1 }
  if s.ckpt.generation = 0 then s.onFilter fun _ => [] else s

/-- The number after a number: 1 follows 65535 (R4). -/
def succNumber (n : CkptNumber) : CkptNumber := if n = 65535 then 1 else n + 1

/-- A record on the stack holds the number. -/
def numberHeld (n : CkptNumber) (stack : List CkptRecord) : Bool := stack.any fun r => r.number == n

/-- The first number from n on, with the wrap, that no record holds (R4); k is at least the number
of records, so the search ends on a free number. -/
def firstFree (stack : List CkptRecord) : Nat → CkptNumber → CkptNumber
  | 0, n => n
  | k + 1, n => if numberHeld n stack then firstFree stack k (succNumber n) else n

/-- The number a take assigns at a SOLO or LEADER push (R4). -/
def assignedNumber (s : State) : CkptNumber :=
  firstFree s.ckpt.stack s.ckpt.stack.length s.ckpt.nextNumber

/-- Push a record: next number follows it, the generation steps, the fence is lowered and the
controller returns to IDLE (R11, R4). -/
def pushCkpt (number : CkptNumber) (source : Source) (s : State) : State :=
  let s := s.onCkpt fun c =>
    { c with stack := c.stack ++ [⟨number, s.log.head, .live, 0, source⟩], nextNumber := succNumber number }
  standDown (stepGeneration s)

/-- Release the n oldest records: they leave, tail moves, and the wait list is served (R14, R34). -/
def releaseOldest (n : Nat) (s : State) : State :=
  let s := s.onCkpt fun c => { c with stack := c.stack.drop n }
  let s := s.onLog fun l =>
    { l with tail := match s.ckpt.stack.head? with
        | some r => r.mark
        | none => l.head }
  serveWaitList s

/-- The stack is full. -/
def stackFull (s : State) : Bool := decide (Config.stackCap ≤ s.ckpt.stack.length)

/-- Truncate to k: every record newer than k leaves, k's records become 0, head and allocated are
set to its mark, and the generation steps (R24, R43). -/
def truncateTo (k : CkptNumber) (s : State) : State :=
  match findCkpt k s with
  | none => s
  | some r =>
    let s := s.onCkpt fun c =>
      { c with stack := c.stack.takeWhile (fun x => x.number != k) ++ [{ r with records := 0 }] }
    let s := s.onLog fun l => { l with head := r.mark, allocated := r.mark }
    stepGeneration s

/-! ## The operation result record (R212) -/

/-- Write the result record. -/
def writeResult (r : OpResult) (s : State) : State := s.onMgmt fun m => { m with result := some r }

/-- The result record of a take. -/
def takeResult (source : Source) (o : ResultOutcome) (number : Option CkptNumber)
    (id : Option OpId) : OpResult := ⟨.take, source, o, number, 0, 0, id⟩

/-- The result record of a rollback (R214). -/
def rollbackResult (source : Source) (o : ResultOutcome) (k : CkptNumber) (applied unrestored : Nat)
    (id : Option OpId) : OpResult := ⟨.rollback, source, o, some k, applied, unrestored, id⟩

/-- The result record of an operation that ended without a push and without a walk (R162, R168). -/
def goalResult (g : Goal) (source : Source) (o : ResultOutcome) (id : Option OpId) : OpResult :=
  match g with
  | .take => takeResult source o none id
  | .rollback k => rollbackResult source o k 0 0 id

/-- The operation-end cause of a goal (R204). -/
def endCause : Goal → AlertCause
  | .take => .takeDone
  | .rollback _ => .rollbackDone

/-- Lines unrestored: lines on the list plus the overflow count (R82). -/
def linesUnrestored (s : State) : Nat := s.restore.unrestored.length + s.restore.overflow

end Sys2Proof.Machine
end

