-- ==== Sys2Proof/Machine/LinkOps.lean ====
section
/-! DEFINITION. Shared operations of the cascade controller (chapter 08): sides, send lists and the
agreement record. -/

namespace Sys2Proof.Machine

/-- The side is one the unit's role uses (R155). -/
def sideUsed (side : Side) (c : Cascade) : Bool :=
  match c.role, side with
  | .solo, _ => false
  | .leader, .up => false
  | .leader, .down => true
  | .follower, .up => true
  | .follower, .down => !c.last

/-- A message is an ASK. -/
def isAsk : Message → Bool
  | .ask _ => true
  | .prepare _ _ _ | .ready _ _ | .go _ _ | .abandon _ | .done _ _ => false

/-- The send list of a side (R158). -/
def sendList (side : Side) (c : Cascade) : List Message :=
  match side with
  | .up => c.upList
  | .down => c.downList

/-- Replace the send list of a side. -/
def setSendList (side : Side) (l : List Message) (s : State) : State :=
  s.onCasc fun c =>
    match side with
    | .up => { c with upList := l }
    | .down => { c with downList := l }

/-- An ASK joins a send list, or merges into the ASK already on it; on a list full of other
messages it is discarded and CASCADE_FAULT latched (R158, R206, log 10). -/
def produceAsk (src : AskSource) (side : Side) (s : State) : State :=
  let l := sendList side s.casc
  if l.any isAsk then countMerged 1 s
  else if l.length < Config.sendCap then setSendList side (l ++ [.ask src]) s
  else latch .cascadeFault s

/-- A message other than ASK joins a send list. On a full list it takes the place of an ASK that is
not being sent, the first of the list being the one on the line; else it is discarded and
CASCADE_FAULT latched (R158). -/
def produce (m : Message) (side : Side) (s : State) : State :=
  let l := sendList side s.casc
  if l.length < Config.sendCap then setSendList side (l ++ [m]) s
  else if (l.drop 1).any isAsk then
    setSendList side (l.take 1 ++ (l.drop 1).filter (fun x => !isAsk x) ++ [m]) s
  else latch .cascadeFault s

/-- A message goes down unless the unit is the last of the chain (R166, R168, R169, R171). -/
def forwardDown (m : Message) (s : State) : State := if s.casc.last then s else produce m .down s

/-- Change the agreement record. -/
def modAgreement (f : Agreement → Agreement) (s : State) : State :=
  s.onCasc fun c => { c with agreement := c.agreement.map f }

/-- The agreement ends for this unit. -/
def dropAgreement (s : State) : State := s.onCasc fun c => { c with agreement := none }

/-- The abandoned id (R160). -/
def setAbandoned (id : OpId) (s : State) : State := s.onCasc fun c => { c with abandoned := some id }

/-- The cascade id of a result: the id of the agreement in progress, if one is. -/
def cascadeIdOf (s : State) : Option OpId := s.casc.agreement.map Agreement.id

/-- The PREPARE of a goal. -/
def prepareOf (id : OpId) : Goal → Message
  | .take => .prepare id .take 0
  | .rollback k => .prepare id .rollback k

/-- The agreement record at its start (R161, R166). -/
def newAgreement (id : OpId) (goal : Goal) (source : Source) (below : BelowReady) (limit : Nat) :
    Agreement where
  id := id
  goal := goal
  source := source
  settled := false
  below := below
  readySent := .none
  go := false
  own := none
  belowDone := none
  pushed := none
  applied := 0
  unrestored := 0
  timer := some ⟨0, limit⟩

/-- A leader starts an agreement: the id counter steps, the record is created, PREPARE goes down and
the agreement timer starts (R161). -/
def startAgreement (goal : Goal) (source : Source) (s : State) : State :=
  let id := s.casc.opId + 1
  let s := s.onCasc fun c =>
    { c with
      opId := id
      agreement := some (newAgreement id goal source .awaited c.agreementLimit) }
  produce (prepareOf id goal) .down s

/-- In the LEADER role an operation starts an agreement. -/
def agreeIfLeader (goal : Goal) (source : Source) (s : State) : State :=
  if s.casc.role = .leader then startAgreement goal source s else s

/-- The rank of an outcome, best first: DONE, PARTIAL, CORRUPT, FAILED (R164). -/
def outcomeRank : DoneOutcome → Nat
  | .done => 0
  | .partly => 1
  | .corrupt => 2
  | .failed => 3

/-- The worse of two outcomes (R164, R170). -/
def worse (a b : DoneOutcome) : DoneOutcome := if outcomeRank a < outcomeRank b then b else a

/-- An outcome in the result record; FAILED is written as SPLIT (R164). -/
def resultOutcome : DoneOutcome → ResultOutcome
  | .done => .done
  | .partly => .partly
  | .corrupt => .corrupt
  | .failed => .split

/-- A DONE for a take that reports PARTIAL or CORRUPT (R164, R170). -/
def outcomeAllowed (g : Goal) (o : DoneOutcome) : Bool :=
  match g, o with
  | .take, .partly => false
  | .take, .corrupt => false
  | .take, .done => true
  | .take, .failed => true
  | .rollback _, _ => true

/-- A leader's agreement ends before GO: the fence is lowered, the controller returns to IDLE, the
result record is written with the cascade id, the operation-end cause latched (R162, R74). -/
def endBeforeGo (a : Agreement) (o : ResultOutcome) (s : State) : State :=
  let s := standDown s
  let s := writeResult (goalResult a.goal a.source o (some a.id)) s
  dropAgreement (latch (endCause a.goal) s)

end Sys2Proof.Machine
end

