-- ==== Sys2Proof/Machine/WalkOps.lean ====
section
/-! DEFINITION. Trigger flags as the restore engine's end reads them, and the rollback walk
(chapter 04). -/

namespace Sys2Proof.Machine

/-! ## Servable triggers (R20) -/

/-- A set flag is servable: LINE while line triggering is enabled, TIMER while auto-take is enabled,
CASCADE in the LEADER role; none in the FOLLOWER role (R20, R156). -/
def servable (src : Source) (s : State) : Bool :=
  match src with
  | .command => false
  | .line => s.ckpt.lineFlag && s.ckpt.lineEnable && s.casc.role != .follower
  | .timer => s.ckpt.timerFlag && s.ckpt.autoTake && s.casc.role != .follower
  | .cascade => s.ckpt.cascadeFlag && s.casc.role == .leader

/-- The first servable set flag in the order LINE, TIMER, CASCADE (R20). -/
def dueSource (s : State) : Option Source := [Source.line, .timer, .cascade].find? fun x => servable x s

/-- The controller is in HELD. -/
def isHeld (s : State) : Bool :=
  match s.ckpt.ctrl with
  | .held _ => true
  | .idle | .settling _ _ | .agreeing _ _ | .restoring _ => false

/-- HELD entered: TRIGGER_MISSED if a servable flag is already set (R21). -/
def enterHeld (r : HeldReason) (s : State) : State :=
  latchIf (dueSource s).isSome .triggerMissed (setCtrl (.held r) s)

/-! ## The unrestored list (R69) -/

/-- Add a line to the unrestored list (R69). -/
def addUnrestored (line : Nat) (s : State) : State :=
  s.onRestore fun r =>
    if r.unrestored.contains line then r
    else if r.unrestored.length < Config.unrestoredCap then { r with unrestored := r.unrestored ++ [line] }
    else { r with overflow := min (r.overflow + 1) Config.count16Max }

/-- The unrestored list and its count are cleared (R69). -/
def clearUnrestored (s : State) : State :=
  s.onRestore fun r => { r with unrestored := [], overflow := 0 }

/-! ## The end of a walk (R82 to R84) -/

/-- The source of the rollback in progress: COMMAND, or CASCADE at a follower (R24, R70). -/
def rollbackSource (s : State) : Source := if s.casc.role = .follower then .cascade else .command

/-- Report the end of a walk: a leader keeps its local outcome and counts for the end of its
agreement; otherwise the result record is written, ROLLBACK_DONE latched, and a follower's own
outcome set (R83, R84, R163, R169). -/
def reportWalk (w : Walk) (o : DoneOutcome) (s : State) : State :=
  let unrestored := linesUnrestored s
  let s := modAgreement
    (fun a => { a with own := some o, applied := w.applied, unrestored := unrestored }) s
  if s.casc.role = .leader then s
  else
    latch .rollbackDone
      (writeResult
        (rollbackResult (rollbackSource s) (resultOutcome o) w.target w.applied unrestored
          (cascadeIdOf s)) s)

/-- The outcome of a finished walk (R82). -/
def walkOutcome (w : Walk) (s : State) : DoneOutcome :=
  if w.stopped then .corrupt
  else if s.restore.unrestored.isEmpty && s.restore.overflow == 0 then .done
  else .partly

/-- The walk is finished: DONE and PARTIAL truncate, lower the fence and return to IDLE (R83);
CORRUPT breaks every LIVE record and enters HELD (R84). -/
def finishWalk (w : Walk) (s : State) : State :=
  let s := s.onRestore fun r => { r with walk := none }
  match walkOutcome w s with
  | .corrupt => reportWalk w .corrupt (enterHeld .corrupt (breakAll s))
  | .done => reportWalk w .done (standDown (truncateTo w.target s))
  | .partly => reportWalk w .partly (standDown (truncateTo w.target s))
  | .failed => s

/-! ## The walk (R75 to R80) -/

/-- Set the walk context. -/
def setWalk (w : Walk) (s : State) : State := s.onRestore fun r => { r with walk := some w }

/-- The walk requests the header read of its position (R76). -/
def requestHeader (w : Walk) (s : State) : State :=
  pushRestore ⟨.walkHeader, .read, headerAddress w.position s.log⟩ (setWalk { w with stage := .header } s)

/-- A rollback to k enters RESTORING: the walk context is created, and the walk ends at once if no
record lies in the range, else it starts at head - 1 (R75). -/
def startWalk (k : CkptNumber) (s : State) : State :=
  match findCkpt k s with
  | none => s
  | some r =>
    let s := setCtrl (.restoring k) s
    let w : Walk :=
      { target := k, floor := r.mark, position := s.log.head - 1, stage := .header, header := none
        oldData := none, applied := 0, stopped := false, quarantined := false }
    if s.log.head = r.mark then finishWalk w s else requestHeader w s

/-- The engine moves on: it finishes when stopped or at the floor, else it takes the next lower
position (R80). -/
def moveOn (w : Walk) (s : State) : State :=
  if w.stopped || w.position == w.floor then finishWalk w s
  else requestHeader { w with position := w.position - 1, header := none, oldData := none } s

/-- The record at the walk's position is done: stage NEXT, left in the same step (R80). -/
def recordDone (w : Walk) (s : State) : State := moveOn { w with stage := .next } s

/-- The header of position p is judged corrupt (R77). -/
def headerCorrupt (h : LineData) (p : Position) (c : Classifier) : Bool :=
  headerMark h != Config.formatMark
    || !(headerFlags h == 0 || headerFlags h == 1)
    || headerPosition h != p
    || decide (c.memSize ≤ headerAddr h)
    || !inWindow (headerAddr h) c
    || (headerPoisoned h && headerCheck h != crc32 (headerTopOf h))

/-- The header read ends OK (R77). -/
def walkHeaderOk (w : Walk) (h : LineData) (s : State) : State :=
  if headerCorrupt h w.position s.cls then recordDone { w with stopped := true } s
  else if headerPoisoned h then recordDone { w with header := some h } (addUnrestored (headerAddr h) s)
  else
    pushRestore ⟨.walkData, .read, dataAddress w.position s.log⟩
      (setWalk { w with header := some h, stage := .data } s)

/-- The data read ends OK: the check value is compared, and the line write requested if it agrees
(R78). -/
def walkDataOk (w : Walk) (d : LineData) (s : State) : State :=
  match w.header with
  | none => s
  | some h =>
    if recordCheck (headerTopOf h) d = headerCheck h then
      pushRestore ⟨.walkWrite, fullWrite d, headerAddr h⟩
        (setWalk { w with oldData := some d, stage := .write } s)
    else recordDone { w with stopped := true } s

/-- The line of the record being processed joins the unrestored list. -/
def failLine (w : Walk) (s : State) : State :=
  match w.header with
  | none => s
  | some h => addUnrestored (headerAddr h) s

/-- The walk's request timed out: the engine waits in DRAIN for its tag (R76, R78). -/
def drainWalk (w : Walk) (s : State) : State := setWalk { w with stage := .drain, quarantined := true } s

/-- The walk's quarantined tag is freed; a walk in DRAIN moves on (R79, R80). -/
def walkFreed (s : State) : State :=
  match s.restore.walk with
  | none => s
  | some w =>
    let w := { w with quarantined := false }
    if w.stage = .drain then moveOn w s else setWalk w s

end Sys2Proof.Machine
end

