-- ==== Sys2Proof/Machine/FollowOps.lean ====
section
/-! DEFINITION. What the rules put in the same step as an event (log 1): the settle, the cascade
sends, the end of an agreement and the trigger check (chapters 01, 04 and 08). -/

namespace Sys2Proof.Machine

/-! ## The end of a settle (R11, R12, R74, R75, R167) -/

/-- A solo take ends: the push, the result record and TAKE_DONE (R11). -/
def soloPush (source : Source) (s : State) : State :=
  let n := assignedNumber s
  latch .takeDone (writeResult (takeResult source .done (some n) none) (pushCkpt n source s))

/-- The local settle of a cascaded operation completes: AGREEING, local phase SETTLED. -/
def enterAgreeing (goal : Goal) (source : Source) (s : State) : State :=
  modAgreement (fun a => { a with settled := true }) (setCtrl (.agreeing goal source) s)

/-- The settle of a take completes if the tracker is settled (R10 to R13). -/
def settleTake (s : State) : State :=
  match s.ckpt.ctrl with
  | .settling .take source =>
    if settled s then
      if s.casc.role = .solo then soloPush source s else enterAgreeing .take source s
    else s
  | .idle | .settling (.rollback _) _ | .agreeing _ _ | .restoring _ | .held _ => s

/-- A rollback ends without a walk because its target is BROKEN (R74); a leader sends ABANDON
(R161), a follower READY(REFUSE, BROKEN) if it has sent no READY (R167). -/
def refuseBroken (k : CkptNumber) (source : Source) (s : State) : State :=
  let id := cascadeIdOf s
  let s := latch .rollbackDone (writeResult (rollbackResult source .refused k 0 0 id) (standDown s))
  match s.casc.agreement with
  | none => s
  | some a =>
    if s.casc.role = .leader then dropAgreement (produce (.abandon a.id) .down s)
    else
      let s := if a.readySent = .none then produce (.ready a.id (.refuse .broken)) .up s else s
      dropAgreement (setAbandoned a.id s)

/-- A checkpoint of the number is on the stack and LIVE. -/
def targetLive (k : CkptNumber) (s : State) : Bool :=
  match findCkpt k s with
  | some r => r.state == .live
  | none => false

/-- The settle of a rollback completes if the stronger condition holds (R72, R74, R75). -/
def settleRollback (s : State) : State :=
  match s.ckpt.ctrl with
  | .settling (.rollback k) source =>
    if rollbackSettled s then
      if targetLive k s then
        if s.casc.role = .solo then startWalk k s else enterAgreeing (.rollback k) source s
      else refuseBroken k source s
    else s
  | .idle | .settling .take _ | .agreeing _ _ | .restoring _ | .held _ => s

/-- A settle completes in the step of the event that settles the tracker (R7, R10, R72). -/
def settle (s : State) : State := settleRollback (settleTake s)

/-! ## GO, READY(OK), DONE and the end of an agreement -/

/-- GO for a take: the number is assigned, GO sent, the record pushed, local outcome DONE (R163). -/
def goTake (a : Agreement) (s : State) : State :=
  let n := assignedNumber s
  let s := produce (.go a.id n) .down s
  let s := pushCkpt n a.source s
  modAgreement (fun a => { a with go := true, own := some .done, pushed := some n }) s

/-- GO for a rollback: GO sent, and the walk begins (R163). -/
def goRollback (a : Agreement) (k : CkptNumber) (s : State) : State :=
  let s := produce (.go a.id k) .down s
  let s := modAgreement (fun a => { a with go := true }) s
  startWalk k s

/-- The leader sends GO once READY(OK) has been taken and the local phase is SETTLED (R163). -/
def leaderGo (s : State) : State :=
  match s.casc.agreement with
  | none => s
  | some a =>
    if s.casc.role = .leader ∧ a.settled = true ∧ a.below = .ok ∧ a.go = false then
      match a.goal with
      | .take => goTake a s
      | .rollback k => goRollback a k s
    else s

/-- A follower sends READY(OK) once it has settled and READY(OK) has come from below or is not
needed, and no READY has been sent (R167). -/
def readyOk (s : State) : State :=
  match s.casc.agreement with
  | none => s
  | some a =>
    if s.casc.role = .follower ∧ a.settled = true ∧ (a.below = .ok ∨ a.below = .notNeeded)
        ∧ a.readySent = .none ∧ a.go = false then
      modAgreement (fun a => { a with readySent := .ok }) (produce (.ready a.id .ok) .up s)
    else s

/-- The result record of a leader's finished agreement (R164). -/
def agreementResult (a : Agreement) (o : DoneOutcome) : OpResult :=
  match a.goal with
  | .take => takeResult a.source (resultOutcome o) a.pushed (some a.id)
  | .rollback k => rollbackResult a.source (resultOutcome o) k a.applied a.unrestored (some a.id)

/-- A leader's agreement ends when both outcomes are known (R164). -/
def agreementEnd (s : State) : State :=
  match s.casc.agreement with
  | none => s
  | some a =>
    match a.own, a.belowDone with
    | some o, some b =>
      if s.casc.role = .leader ∧ a.go = true then
        dropAgreement (latch (endCause a.goal) (writeResult (agreementResult a (worse o b)) s))
      else s
    | none, _ => s
    | some _, none => s

/-- A follower sends DONE with the worse of the outcomes once they are known; the below outcome is
not needed by the last of the chain (R170). -/
def doneSend (s : State) : State :=
  match s.casc.agreement with
  | none => s
  | some a =>
    match a.own with
    | none => s
    | some o =>
      if s.casc.role = .follower ∧ a.go = true ∧ (s.casc.last = true ∨ a.belowDone.isSome = true) then
        dropAgreement (produce (.done a.id (worse o (a.belowDone.getD o))) .up s)
      else s

/-- The cascade sends and agreement ends that are due. -/
def cascadeFollow (s : State) : State := doneSend (agreementEnd (readyOk (leaderGo s)))

/-! ## Taking a checkpoint and the trigger check (R9, R20 to R22) -/

/-- How many trigger flags are set. -/
def flagCount (c : Controller) : Nat := c.lineFlag.toNat + c.timerFlag.toNat + c.cascadeFlag.toNat

/-- Every trigger flag is cleared. -/
def clearFlags (s : State) : State :=
  s.onCkpt fun c => { c with lineFlag := false, timerFlag := false, cascadeFlag := false }

/-- A take starts: flags are cleared and counted as merged, the fence is raised, SETTLING(TAKE) is
entered and a leader starts an agreement (R9). -/
def startTake (source : Source) (s : State) : State :=
  let merged := flagCount s.ckpt - (if source = .command then 0 else 1)
  let s := clearFlags (countMerged merged s)
  agreeIfLeader .take source (setCtrl (.settling .take source) (raiseFence s))

/-- A due trigger take that cannot start: every flag is cleared, the result record is written MISSED
and TRIGGER_MISSED latched (R21). -/
def missTrigger (source : Source) (s : State) : State :=
  latch .triggerMissed (writeResult (takeResult source .missed none none) (clearFlags s))

/-- A long operation is in progress: the controller is not IDLE, or a leader's agreement is in
progress (R7). -/
def longOp (s : State) : Bool :=
  s.ckpt.ctrl != .idle || (s.casc.role == .leader && s.casc.agreement.isSome)

/-- The trigger check (R20): a due trigger take starts, after the rolling release of a full stack
(R22), or is missed (R21); a tracker already settled completes it in the same step (R7). -/
def triggerCheck (s : State) : State :=
  if longOp s then s
  else
    match dueSource s with
    | none => s
    | some source =>
      if !s.log.configured || (stackFull s && !s.ckpt.rolling) then missTrigger source s
      else settle (startTake source (if stackFull s then releaseOldest 1 s else s))

/-- The follow-ups of an event on the checkpoint controller: settle, cascade, and the trigger check
if a long operation ended (`before` is the state in which it was still in progress). -/
def controlFollow (before s : State) : State :=
  let s := cascadeFollow (settle s)
  if longOp before && !longOp s then triggerCheck s else s

/-- A trigger flag is latched: a flag already set counts as merged; in HELD a servable latch latches
TRIGGER_MISSED (R17, R18, R19, R21). -/
def latchFlag (src : Source) (s : State) : State :=
  let already := match src with
    | .command => false
    | .line => s.ckpt.lineFlag
    | .timer => s.ckpt.timerFlag
    | .cascade => s.ckpt.cascadeFlag
  let s := if already then countMerged 1 s else s
  let s := s.onCkpt fun c =>
    match src with
    | .command => c
    | .line => { c with lineFlag := true }
    | .timer => { c with timerFlag := true }
    | .cascade => { c with cascadeFlag := true }
  latchIf (isHeld s && servable src s) .triggerMissed s

end Sys2Proof.Machine
end

