-- ==== Sys2Proof/Machine/PortOps.lean ====
section
/-! DEFINITION. Shared operations of the two line ports: the arbiter and the grant, the ends a
downstream request delivers to its owner (chapter 07), the offer of a response and the taking of an
offered request (chapters 05 and 06). -/

namespace Sys2Proof.Machine

/-! ## The arbiter and the grant (R142 to R144) -/

/-- The ready list of a class. -/
def readyList (c : DownClass) (d : Downstream) : List DownReq :=
  match c with
  | .host => d.hostReady
  | .preserve => d.preserveReady
  | .restore => d.restoreReady

/-- Drop the front request of a class. -/
def popReady (c : DownClass) (d : Downstream) : Downstream :=
  match c with
  | .host => { d with hostReady := d.hostReady.drop 1 }
  | .preserve => { d with preserveReady := d.preserveReady.drop 1 }
  | .restore => { d with restoreReady := d.restoreReady.drop 1 }

/-- The weight of a class. -/
def weightOf (c : DownClass) (d : Downstream) : Nat :=
  match c with
  | .host => d.wHost
  | .preserve => d.wPreserve
  | .restore => d.wRestore

/-- The next class in the order HOST, PRESERVE, RESTORE, HOST. -/
def nextClass : DownClass → DownClass
  | .host => .preserve
  | .preserve => .restore
  | .restore => .host

/-- A class has a ready request. -/
def hasReady (d : Downstream) (c : DownClass) : Bool := !(readyList c d).isEmpty

/-- The class the arbiter chooses and the used count after the grant (R144). -/
def chooseClass (d : Downstream) : Option (DownClass × Nat) :=
  if hasReady d d.turn && decide (d.used < weightOf d.turn d) then some (d.turn, d.used + 1)
  else
    ([nextClass d.turn, nextClass (nextClass d.turn), d.turn].find? (hasReady d)).map fun c => (c, 1)

/-- The lowest-numbered FREE tag below the outstanding limit (R141, R142). -/
def freeTag (d : Downstream) : Option (Fin 32) :=
  (List.finRange 32).find? fun t => decide (t.val < d.limit) && d.tags.all fun u => u.num != t

/-- The owner is told its tag (R141): an entry records the tag of its own request, a record write
becomes OUTSTANDING. -/
def tellGranted (o : Owner) (t : Fin 32) (s : State) : State :=
  match o with
  | .host n => modEntry n (fun e => { e with dtag := some t }) s
  | .capture n => modEntry n (fun e => { e with dtag := some t }) s
  | .headerWrite n => modCtx n (setWriteState .header .outstanding) s
  | .dataWrite n => modCtx n (setWriteState .data .outstanding) s
  | .walkHeader | .walkData | .walkWrite => s

/-- The grant of a class's front request under a tag (R143). -/
def grantUnder (c : DownClass) (used : Nat) (t : Fin 32) (r : DownReq) (s : State) : State :=
  tellGranted r.owner t
    (s.onDown fun d =>
      { popReady c d with
        tags := d.tags ++ [⟨t, .outstanding r none⟩]
        channel := some t
        turn := c
        used := used })

/-- The grant, if the channel is FREE, a request is ready and a tag is free (R143). -/
def grantIfDue (s : State) : State :=
  match s.down.channel, chooseClass s.down, freeTag s.down with
  | none, some (c, used), some t =>
    match readyList c s.down with
    | [] => s
    | r :: _ => grantUnder c used t r s
  | _, _, _ => s

/-- The state of a tag, none while FREE. -/
def tagState (t : Fin 32) (d : Downstream) : Option TagState :=
  (d.tags.find? fun u => u.num == t).map TagUse.state

/-- A tag becomes FREE. -/
def freeTheTag (t : Fin 32) (s : State) : State :=
  s.onDown fun d => { d with tags := d.tags.filter fun u => u.num != t }

/-- A tag changes its state. -/
def setTag (t : Fin 32) (st : TagState) (s : State) : State :=
  s.onDown fun d => { d with tags := d.tags.map fun u => if u.num = t then { u with state := st } else u }

/-- The request the channel offers to the memory controller, with its tag (R139, R143). -/
def offeredRequest (s : State) : Option (Fin 32 × DownReq) :=
  match s.down.channel with
  | none => none
  | some t =>
    match tagState t s.down with
    | some (.outstanding r _) => some (t, r)
    | some (.quarantined _ _) | none => none

/-! ## Ends of downstream requests (R150) -/

/-- How a granted request ends for its owner (R150). -/
inductive End
  | ok (data : LineData)
  | error
  | timeout
deriving DecidableEq, Repr

/-- The HOST request of an entry ends by a response (R100). -/
def hostEnd (n : Fin 32) (st : UpStatus) (data : LineData) (s : State) : State :=
  finishEntry n st
    (modEntry n (fun e =>
      { e with dtag := none, readData := if e.op = .read then some data else e.readData }) s)

/-- The HOST request of an entry timed out: ERROR is fixed and the entry is held in ISSUING (R101). -/
def hostTimeout (n : Fin 32) (s : State) : State :=
  modEntry n (fun e =>
    { e with
      dtag := none
      status := some .error
      hold := true
      readData := if e.op = .read then some 0 else e.readData }) s

/-- The quarantined tag of a held entry is freed: DONE with ERROR (R101). -/
def hostFreed (n : Fin 32) (s : State) : State :=
  finishEntry n .error (modEntry n (fun e => { e with hold := false }) s)

/-- Run a walk step on the walk context, if there is one. -/
def onWalk (f : Walk → State → State) (s : State) : State :=
  match s.restore.walk with
  | none => s
  | some w => f w s

/-- The end of a granted request, delivered to its owner (R150). -/
def deliver (o : Owner) (e : End) (s : State) : State :=
  match o, e with
  | .host n, .ok d => hostEnd n .ok d s
  | .host n, .error => hostEnd n .error 0 s
  | .host n, .timeout => hostTimeout n s
  | .capture n, .ok d => captureOk n d s
  | .capture n, .error => capturePoison n false s
  | .capture n, .timeout => capturePoison n true s
  | .headerWrite n, .ok _ => recordWriteOk n .header s
  | .headerWrite n, .error => recordWriteBad n .header false s
  | .headerWrite n, .timeout => recordWriteBad n .header true s
  | .dataWrite n, .ok _ => recordWriteOk n .data s
  | .dataWrite n, .error => recordWriteBad n .data false s
  | .dataWrite n, .timeout => recordWriteBad n .data true s
  | .walkHeader, .ok d => onWalk (fun w s => walkHeaderOk w d s) s
  | .walkHeader, .error => onWalk (fun w s => recordDone { w with stopped := true } s) s
  | .walkHeader, .timeout => onWalk (fun w s => drainWalk { w with stopped := true } s) s
  | .walkData, .ok d => onWalk (fun w s => walkDataOk w d s) s
  | .walkData, .error => onWalk (fun w s => recordDone { w with stopped := true } s) s
  | .walkData, .timeout => onWalk (fun w s => drainWalk { w with stopped := true } s) s
  | .walkWrite, .ok _ => onWalk (fun w s => recordDone { w with applied := w.applied + 1 } s) s
  | .walkWrite, .error => onWalk (fun w s => recordDone w (failLine w s)) s
  | .walkWrite, .timeout => onWalk (fun w s => drainWalk w (failLine w s)) s

/-- The freed notice of a quarantined tag, delivered to its owner (R149). -/
def deliverFreed (o : Owner) (s : State) : State :=
  match o with
  | .host n => hostFreed n s
  | .capture n => captureFreed n s
  | .headerWrite n => recordWriteFreed n s
  | .dataWrite n => recordWriteFreed n s
  | .walkHeader | .walkData | .walkWrite => walkFreed s

/-! ## The response channel (R105) -/

/-- The acceptance sequences of the items ready for the channel: DONE entries and refusal items. -/
def readySeqs (s : State) : List Nat :=
  (s.entries.filter fun e => e.state == .done).map Entry.seq ++ s.up.refusals.map RefusalItem.seq

/-- The channel, if it offers nothing, offers the ready item with the oldest acceptance sequence
(R105). -/
def offerIfDue (s : State) : State :=
  if s.up.channel.isNone then s.onUp fun u => { u with channel := (readySeqs s).min? } else s

/-- A response to the upstream master (R104, R121). -/
structure UpResponse where
  tag    : Fin 64
  kind   : RwKind
  status : UpStatus
  data   : Option LineData
deriving DecidableEq, Repr

/-- The response of a DONE entry (R104): a READ carries the data returned, or zeros. -/
def entryResponse (e : Entry) : UpResponse :=
  { tag := e.tag
    kind := opKind e.op
    status := e.status.getD .error
    data := if e.op = .read then some (e.readData.getD 0) else none }

/-- The response of a refusal item (R121): a READ carries zeros. -/
def refusalResponse (r : RefusalItem) : UpResponse :=
  ⟨r.tag, r.kind, r.status, if r.kind = .read then some 0 else none⟩

/-- The response the channel offers (R105). -/
def offeredResponse (s : State) : Option UpResponse :=
  match s.up.channel with
  | none => none
  | some q =>
    match s.entries.find? fun e => e.seq == q with
    | some e => some (entryResponse e)
    | none => (s.up.refusals.find? fun r => r.seq == q).map refusalResponse

/-! ## Taking an offered request (R115 to R120) -/

/-- Both queues have room (R115). -/
def portHasRoom (u : Upstream) : Bool :=
  decide (u.queue.length < Config.admissionCap) && decide (u.refusals.length < Config.refusalCap)

/-- The line lies in the configured log area (R120). -/
def inLogArea (line : Nat) (l : Log) : Bool :=
  l.configured && decide (l.base ≤ line) && decide (line < l.base + 2 * l.capacity)

/-- The refusal a request meets, by the first row of R118 that applies. -/
def refusalOf (r : HostRequest) (s : State) : Option UpStatus :=
  if s.up.liveTags.contains r.tag then some .protocol
  else if s.cls.memSize ≤ r.line then some .range
  else if opKind r.op = .write ∧ inLogArea r.line s.log = true then some .guard
  else none

/-- The class of a request that is not refused (R124). -/
def classOf (line : Nat) (s : State) : ReqClass := if inWindow line s.cls then .guarded else .plain

/-- The port takes a request: it receives its acceptance sequence and joins the refusal queue or
the admission queue (R115 to R121). -/
def takeRequest (r : HostRequest) (s : State) : State :=
  let q := s.up.nextSeq
  match refusalOf r s with
  | some st =>
    latchIf (st == .protocol) .lineProtocol
      (s.onUp fun u =>
        { u with
          nextSeq := q + 1
          liveTags := if st = .protocol then u.liveTags else u.liveTags ++ [r.tag]
          refusals := u.refusals ++ [⟨r.tag, opKind r.op, st, q⟩] })
  | none =>
    s.onUp fun u =>
      { u with
        nextSeq := q + 1
        liveTags := u.liveTags ++ [r.tag]
        queue := u.queue ++ [⟨r.tag, r.op, r.line, classOf r.line s, q⟩] }

/-- The offered request is taken at the first event after which both queues have room (R115). -/
def takeOffered (s : State) : State :=
  match s.up.offered with
  | none => s
  | some r =>
    if portHasRoom s.up then takeRequest r (s.onUp fun u => { u with offered := none }) else s

/-! ## Follow-ups of the ports, and events -/

/-- What follows on the two line ports in the same step: the grant (R143) and the offer (R105). -/
def portFollow (s : State) : State := offerIfDue (grantIfDue s)

/-- A reset is asserted or, after WARM_RESET, lasts: no event is taken (R177, R203). -/
def inReset (s : State) : Bool := s.pins.porstLow || s.pins.wrstLow || s.pins.commandReset.isSome

/-- The downstream link reset is driven (R152). -/
def linkReset (s : State) : Bool := inReset s

/-- An event, taken unless a reset is asserted (R203). -/
def event (s : State) (f : State → State) : Host.Outcome State Fault Refusal :=
  .next (if inReset s then s else f s)

end Sys2Proof.Machine
end

