-- ==== Sys2Proof/Machine/Payloads.lean ====
section
/-! DEFINITION. The payloads of the management responses and the response frame (R182, R193 to R197,
R219, R221). -/

namespace Sys2Proof.Machine

/-! ## Codes (R221) -/

/-- Controller state codes. -/
def ctrlCode : Ctrl → Nat
  | .idle => 0
  | .settling _ _ => 1
  | .agreeing _ _ => 2
  | .restoring _ => 3
  | .held _ => 4

/-- Operation kind codes. -/
def kindCode : OpKind → Nat
  | .take => 1
  | .rollback => 2

/-- The kind of a goal. -/
def goalKind : Goal → OpKind
  | .take => .take
  | .rollback _ => .rollback

/-- The target of a goal, 0 for a take. -/
def goalTarget : Goal → Nat
  | .take => 0
  | .rollback k => k.toNat

/-- HELD reason codes. -/
def heldCode : HeldReason → Nat
  | .corrupt => 1
  | .interrupted => 2

/-- Source codes. -/
def sourceCode : Source → Nat
  | .command => 1
  | .line => 2
  | .timer => 3
  | .cascade => 4

/-- Checkpoint state codes. -/
def ckptStateCode : CkptState → Nat
  | .live => 1
  | .broken => 2

/-- Result outcome codes. -/
def outcomeCode : ResultOutcome → Nat
  | .done => 1
  | .partly => 2
  | .corrupt => 3
  | .refused => 4
  | .timeout => 5
  | .split => 6
  | .interrupted => 7
  | .missed => 8

/-- Cascade role codes. -/
def roleCode : Role → Nat
  | .solo => 0
  | .leader => 1
  | .follower => 2

/-- Policy codes. -/
def policyCode : Policy → Nat
  | .stall => 0
  | .break => 1

/-- Refusal reason codes: the READY verdict values. -/
def reasonCode (r : RefuseReason) : Nat := (readyByte (.refuse r)).toNat

/-- A Bool as 0 or 1. -/
def bit (b : Bool) : Nat := b.toNat

/-- Three flags packed into one byte, the first in bit 0. -/
def pack3 (a b c : Bool) : Nat := bit a + 2 * bit b + 4 * bit c

/-- The phase of an agreement at this unit: 1 settling, 2 awaiting READY, 3 awaiting the local
settle, 4 applying, 5 awaiting DONE, 6 awaiting GO, 7 refused and awaiting ABANDON (R175, R221,
log 14). -/
def agreementPhase (a : Agreement) : Nat :=
  if a.go then (if a.own.isSome then 5 else 4)
  else if a.readySent = .refuse then 7
  else if a.settled then (if a.below = .awaited then 2 else 6)
  else if a.below = .ok then 3
  else 1

/-! ## Payloads -/

/-- The payload of IDENTIFY (R182). -/
def identifyPayload : List Byte :=
  be 2 Config.partCode ++ be 1 Config.revision ++ be 1 64 ++ be 1 Config.admissionCap
    ++ be 1 Config.fenceCap ++ be 1 Config.refusalCap ++ be 1 Config.trackerCap ++ be 1 8
    ++ be 2 Config.filterSets ++ be 1 4 ++ be 1 Config.stackCap ++ be 4 Config.recordsMax
    ++ be 1 32 ++ be 1 Config.unrestoredCap ++ be 1 8 ++ be 1 4

/-- One record of READ_CHECKPOINTS (R221). -/
def recordItem (r : CkptRecord) : List Byte :=
  be 2 r.number.toNat ++ be 4 r.mark.toNat ++ be 1 (ckptStateCode r.state) ++ be 4 r.records
    ++ be 1 (sourceCode r.source)

/-- The payload of READ_CHECKPOINTS (R194). -/
def checkpointsPayload (s : State) : List Byte :=
  be 1 s.ckpt.stack.length ++ s.ckpt.stack.flatMap recordItem

/-- The payload of READ_RESULT (R195, R221). -/
def resultPayload : Option OpResult → List Byte
  | none => List.replicate 16 0
  | some r =>
    be 1 1 ++ be 1 (kindCode r.kind) ++ be 1 (sourceCode r.source) ++ be 1 (outcomeCode r.outcome)
      ++ be 1 (bit r.number.isSome + 2 * bit r.cascadeId.isSome)
      ++ be 2 ((r.number.map BitVec.toNat).getD 0) ++ be 4 r.applied ++ be 4 r.unrestored
      ++ be 1 ((r.cascadeId.map BitVec.toNat).getD 0)

/-- The payload of READ_UNRESTORED (R196). -/
def unrestoredPayload (s : State) : List Byte :=
  be 1 s.restore.unrestored.length ++ s.restore.unrestored.flatMap (be 5) ++ be 2 s.restore.overflow

/-- The payload of READ_COUNTERS (R197). -/
def countersPayload (c : Counters) : List Byte :=
  bytes32 c.protectedWrites ++ bytes32 c.filterHits ++ bytes32 c.recordsWritten
    ++ bytes32 c.filterDisplacements ++ bytes32 c.fenceDeferrals ++ bytes32 c.stallTime
    ++ bytes32 c.triggersMerged ++ bytes32 c.downstreamTimeouts

/-- Bytes 0 to 4 of the status payload: controller state, qualifier, source, target. -/
def ctrlBytes : Ctrl → List Byte
  | .idle => [0, 0, 0, 0, 0]
  | .settling g src => be 1 1 ++ be 1 (kindCode (goalKind g)) ++ be 1 (sourceCode src) ++ be 2 (goalTarget g)
  | .agreeing g src => be 1 2 ++ be 1 (kindCode (goalKind g)) ++ be 1 (sourceCode src) ++ be 2 (goalTarget g)
  | .restoring k => [3, 0, 0] ++ bytes16 k
  | .held r => be 1 4 ++ be 1 (heldCode r) ++ [0, 0, 0]

/-- Bytes 0 to 15: the controller group. -/
def controllerGroup (c : Controller) : List Byte :=
  ctrlBytes c.ctrl ++ be 1 (bit c.fence) ++ be 1 c.stack.length ++ bytes16 c.generation
    ++ be 1 (pack3 c.lineFlag c.timerFlag c.cascadeFlag)
    ++ be 1 (pack3 c.lineEnable c.autoTake c.rolling)
    ++ be 2 c.interval ++ be 2 c.intervalCount ++ [0]

/-- Bytes 16 to 53: the log group. -/
def logGroup (l : Log) : List Byte :=
  be 1 (bit l.configured) ++ be 1 (policyCode l.policy) ++ be 2 l.stallLimit ++ be 5 l.base
    ++ be 4 l.capacity ++ be 4 l.watermark ++ bytes32 l.tail ++ bytes32 l.head
    ++ bytes32 l.allocated ++ be 4 (occupancy l) ++ be 1 l.waitList.length
    ++ be 4 (min l.stallClock (2 ^ 32 - 1))

/-- One window of the status payload. -/
def windowItem (w : Window) : List Byte := be 1 (bit w.enable) ++ be 5 w.base ++ be 5 w.count

/-- Bytes 54 to 150: the admission group. -/
def admissionGroup (u : Upstream) (c : Classifier) : List Byte :=
  be 1 u.liveTags.length ++ be 1 u.queue.length ++ be 1 u.fenceList.length ++ be 1 u.refusals.length
    ++ be 5 c.memSize ++ c.windows.toList.flatMap windowItem

/-- The number of entries in a state. -/
def inState (st : EntryState) (s : State) : Nat := (s.entries.filter fun e => e.state == st).length

/-- Bytes 151 to 160: the tracker group. -/
def trackerGroup (s : State) : List Byte :=
  be 1 s.entries.length ++ be 1 (Config.trackerCap - s.entries.length) ++ be 1 (inState .blocked s)
    ++ be 1 (inState .logWait s) ++ be 1 (inState .capturing s) ++ be 1 (inState .recording s)
    ++ be 1 (inState .commitWait s) ++ be 1 (inState .issuing s) ++ be 1 (inState .done s)
    ++ be 1 (bit (settled s) + 2 * bit (rollbackSettled s))

/-- A tag is OUTSTANDING. -/
def isOutstanding (u : TagUse) : Bool :=
  match u.state with
  | .outstanding _ _ => true
  | .quarantined _ _ => false

/-- Bytes 161 to 171: the downstream group. -/
def downstreamGroup (d : Downstream) : List Byte :=
  be 1 d.hostReady.length ++ be 1 d.preserveReady.length ++ be 1 d.restoreReady.length
    ++ be 1 (d.tags.filter isOutstanding).length
    ++ be 1 (d.tags.filter fun u => !isOutstanding u).length
    ++ be 1 d.limit ++ be 1 d.wHost ++ be 1 d.wPreserve ++ be 1 d.wRestore ++ be 2 d.timeout

/-- Bytes 178 to 186: the agreement in progress. -/
def agreementBytes : Option Agreement → List Byte
  | none => List.replicate 9 0
  | some a =>
    [1, a.id] ++ be 1 (kindCode (goalKind a.goal)) ++ be 2 (goalTarget a.goal)
      ++ be 1 (agreementPhase a)
      ++ [(a.belowDone.map doneByte).getD 0] ++ be 2 ((a.timer.map Timer.value).getD 0)

/-- Bytes 172 to 194: the cascade group (R175). -/
def cascadeGroup (c : Cascade) : List Byte :=
  be 1 (roleCode c.role) ++ be 1 (bit c.last) ++ be 2 c.agreementLimit ++ be 2 c.holdLimit
    ++ agreementBytes c.agreement ++ [c.opId] ++ be 1 (bit c.abandoned.isSome)
    ++ [c.abandoned.getD 0] ++ be 1 ((c.lastRefusal.map reasonCode).getD 0) ++ be 2 c.badCount
    ++ be 1 c.upList.length ++ be 1 c.downList.length

/-- Bytes 195 to 199: the alert group. -/
def alertGroup (s : State) : List Byte :=
  be 2 s.mgmt.latches.toNat ++ be 2 s.mgmt.mask.toNat ++ be 1 (bit (alertAsserted s))

/-- The 200-byte payload of READ_STATUS (R193, section 11.5). -/
def statusPayload (s : State) : List Byte :=
  controllerGroup s.ckpt ++ logGroup s.log ++ admissionGroup s.up s.cls ++ trackerGroup s
    ++ downstreamGroup s.down ++ cascadeGroup s.casc ++ alertGroup s

/-! ## The response frame -/

/-- The bytes of a response frame: status, payload length, payload, check byte (R219). -/
def responseFrame (r : Response) : List Byte :=
  withCheck (r.status :: be 2 r.payload.length ++ r.payload)

end Sys2Proof.Machine
end

