-- ==== Sys2Proof/Machine/ResetOps.lean ====
section
/-! DEFINITION. Power-on reset, warm reset and the answering of management frames (chapters 01, 09
and 10; the reset tables of every chapter). -/

namespace Sys2Proof.Machine

/-! ## Warm reset -/

/-- The operation result record after a warm reset (R26, R87, R213, R214): INTERRUPTED for an
operation in progress, or a leader's agreement awaiting DONE; else unchanged. -/
def interruptedResult (s : State) : Option OpResult :=
  match s.ckpt.ctrl with
  | .settling g src | .agreeing g src => some (goalResult g src .interrupted (cascadeIdOf s))
  | .restoring k =>
    some (rollbackResult (rollbackSource s) .interrupted k
      ((s.restore.walk.map Walk.applied).getD 0) (linesUnrestored s) (cascadeIdOf s))
  | .idle | .held _ =>
    match s.casc.agreement with
    | some a =>
      if s.casc.role = .leader then
        match a.goal with
        | .take => some (takeResult a.source .interrupted a.pushed (some a.id))
        | .rollback k =>
          some (rollbackResult a.source .interrupted k a.applied a.unrestored (some a.id))
      else s.mgmt.result
    | none => s.mgmt.result

/-- The controller state after a warm reset (R26). -/
def warmCtrl : Ctrl → Ctrl
  | .idle => .idle
  | .settling _ _ => .idle
  | .agreeing _ _ => .idle
  | .restoring _ => .held .interrupted
  | .held r => .held r

/-- The fence after a warm reset: raised in HELD, lowered otherwise (R6, R26). -/
def warmFence : Ctrl → Bool
  | .restoring _ | .held _ => true
  | .idle | .settling _ _ | .agreeing _ _ => false

/-- The checkpoint controller after a warm reset (R26, R18, R23). -/
def warmController (c : Controller) : Controller :=
  { c with
    fence := warmFence c.ctrl
    ctrl := warmCtrl c.ctrl
    lineFlag := false
    timerFlag := false
    cascadeFlag := false
    autoTake := false
    intervalCount := c.interval
    intervalMicros := 0 }

/-- The log controller after a warm reset (R44). -/
def warmLog (l : Log) : Log :=
  { l with allocated := l.head, finished := [], waitList := [], stallClock := 0 }

/-- The downstream port after a warm reset (R152, R153): the settings are kept. -/
def warmDownstream (d : Downstream) : Downstream :=
  { d with
    hostReady := []
    preserveReady := []
    restoreReady := []
    tags := []
    channel := none
    turn := .host
    used := 0 }

/-- The cascade controller after a warm reset (R174): a follower remembers the id of the agreement
it drops. -/
def warmCascade (c : Cascade) : Cascade :=
  { c with
    agreement := none
    abandoned :=
      match c.role, c.agreement with
      | .follower, some a => some a.id
      | _, _ => c.abandoned
    upList := []
    downList := [] }

/-- The upstream port and admission side after a reset (R136): an offer not taken stays offered. -/
def resetUpstream (u : Upstream) : Upstream := { Upstream.reset with offered := u.offered }

/-- The management port during a reset: the transaction is abandoned (R177, R202). -/
def abandonTransaction (m : Mgmt) : Mgmt :=
  { m with decoder := .waiting, warmPending := false, response := none }

/-- The warm reset of every block (R26, R44, R67, R90, R112, R136, R153, R174, R216). -/
def warmReset (s : State) : State :=
  let result := interruptedResult s
  { s with
    up := resetUpstream s.up
    entries := []
    filter := []
    log := warmLog s.log
    ckpt := warmController s.ckpt
    restore := { s.restore with walk := none }
    down := warmDownstream s.down
    casc := warmCascade s.casc
    mgmt := { abandonTransaction s.mgmt with result := result } }

/-- The power-on reset of every block; the lines keep the levels the outside drives (R25, R44, R67,
R90, R112, R136, R153, R174, R202, R216), and a reset of WARM_RESET still running is over (log 26). -/
def powerOnReset (s : State) : State :=
  { State.reset with
    up := resetUpstream s.up
    ckpt := { Controller.reset with ckptLevel := s.ckpt.ckptLevel }
    mgmt := { Mgmt.reset with mcsLow := s.mgmt.mcsLow }
    pins := { s.pins with commandReset := none }
    pending := s.pending }

/-- A reset ends, if none is left asserted: CKPT_REQ's level is the starting level, the port waits
for MCS_N to rise if it is low, and an offered request is taken (R25, R26, R115, R177). -/
def resume (ckptReq : Bool) (s : State) : State :=
  let s := s.onCkpt fun c => { c with ckptLevel := ckptReq }
  if inReset s then s
  else
    offerIfDue (takeOffered (s.onMgmt fun m =>
      { m with decoder := if m.mcsLow then .ignoring else .waiting }))

/-! ## Answering frames (R176, R179) -/

/-- What executing a frame gives: the status, the payload and the state. -/
structure Answer where
  status  : Byte
  payload : List Byte
  state   : State

/-- Status OK (R179). -/
abbrev stOk : Byte := 0x00
/-- Status ACCEPTED. -/
abbrev stAccepted : Byte := 0x01
/-- Status BUSY. -/
abbrev stBusy : Byte := 0x10
/-- Status STATE. -/
abbrev stState : Byte := 0x11
/-- Status RANGE. -/
abbrev stRange : Byte := 0x12
/-- Status OVERLAP. -/
abbrev stOverlap : Byte := 0x13
/-- Status STACK_FULL. -/
abbrev stStackFull : Byte := 0x14
/-- Status NOT_FOUND. -/
abbrev stNotFound : Byte := 0x15
/-- Status BROKEN. -/
abbrev stBroken : Byte := 0x16
/-- Status NO_LOG. -/
abbrev stNoLog : Byte := 0x17
/-- Status BAD_FRAME. -/
abbrev stBadFrame : Byte := 0x20
/-- Status UNKNOWN_COMMAND. -/
abbrev stUnknown : Byte := 0x21

/-- A refusal: an empty payload and no change of state (R179). -/
def refuse (st : Byte) (s : State) : Answer := ⟨st, [], s⟩

/-- OK with an empty payload. -/
def done (s : State) : Answer := ⟨stOk, [], s⟩

/-- The response is built and the decoder leaves the request phase, or has run a whole transaction
(R176, log 6). -/
def respond (d : Decoder) (a : Answer) : State :=
  a.state.onMgmt fun m => { m with decoder := d, response := some ⟨a.status, a.payload⟩ }

/-- The reset WARM_RESET asked for begins at the end of its transaction (R201). -/
def startPendingReset (s : State) : State :=
  if s.mgmt.warmPending then (warmReset s).onPins fun p => { p with commandReset := some 0 } else s

/-- A frame received whole: executed in the request phase of the open transaction; with none open it
stands for a whole transaction of its own (log 6); ignored after an executed frame and while the
port waits for MCS_N; not taken during a reset (R176, R177). -/
def onFrame (s : State) (run : State → Answer) : Host.Outcome State Fault Refusal :=
  .next
    (if inReset s then s
     else
       match s.mgmt.decoder with
       | .request => respond .answered (run s)
       | .waiting => startPendingReset (respond .waiting (run s))
       | .answered | .ignoring => s)

end Sys2Proof.Machine
end

