-- ==== Sys2Proof/Machine/Checkpoints.lean ====
section
/-! DEFINITION. The events of the checkpoint controller: TAKE_SETTLED, TRIGGER_TAKE_START,
ROLLBACK_SETTLED, STALL_LIMIT_EXPIRY, CKPT_REQ_RISE, INTERVAL_EXPIRY (chapters 01, 02 and 04). -/

namespace Sys2Proof.Machine

/-- What follows a settle: the cascade sends, and the trigger check if the operation ended. -/
def afterSettle (before s : State) : State :=
  let s := cascadeFollow s
  portFollow (if longOp before && !longOp s then triggerCheck s else s)

/-- TAKE_SETTLED (R10 to R13). -/
def execTakeSettled (s : State) : Host.Outcome State Fault Refusal :=
  event s fun s => afterSettle s (settleTake s)

/-- TRIGGER_TAKE_START (R20 to R22). -/
def execTriggerTakeStart (s : State) : Host.Outcome State Fault Refusal :=
  event s fun s => portFollow (triggerCheck s)

/-- ROLLBACK_SETTLED (R72, R74, R75). -/
def execRollbackSettled (s : State) : Host.Outcome State Fault Refusal :=
  event s fun s => afterSettle s (settleRollback s)

/-- STALL_LIMIT_EXPIRY (R40): the stall clock reaches its non-zero limit, each microsecond to it
counted in STALL_TIME (log 3), and the log controller requests a break. -/
def execStallLimitExpiry (s : State) : Host.Outcome State Fault Refusal :=
  event s fun s =>
    if s.log.waitList.isEmpty || s.log.stallLimit == 0 then s
    else
      let s := countStallTime (s.log.stallLimit - s.log.stallClock) s
      let s := s.onLog fun l => { l with stallClock := max l.stallClock l.stallLimit }
      grantIfDue (breakAll s)

/-- CKPT_REQ_RISE (R17, R172): with line triggering enabled, the LINE flag is latched, or a follower
sends ASK(LINE). -/
def execCkptReqRise (s : State) : Host.Outcome State Fault Refusal :=
  event s fun s =>
    let s := s.onCkpt fun c => { c with ckptLevel := true }
    if s.ckpt.lineEnable then
      if s.casc.role = .follower then produceAsk .line .up s
      else portFollow (triggerCheck (latchFlag .line s))
    else s

/-- INTERVAL_EXPIRY (R18, R172): a running interval timer reloads; the TIMER flag is latched, or a
follower with auto-take enabled sends ASK(TIMER). -/
def execIntervalExpiry (s : State) : Host.Outcome State Fault Refusal :=
  event s fun s =>
    if s.ckpt.interval = 0 then s
    else
      let s := s.onCkpt fun c => { c with intervalCount := c.interval, intervalMicros := 0 }
      if s.casc.role = .follower then
        if s.ckpt.autoTake then produceAsk .timer .up s else s
      else portFollow (triggerCheck (latchFlag .timer s))

end Sys2Proof.Machine
end

