-- ==== Sys2Proof/Machine/DownstreamPort.lean ====
section
/-! DEFINITION. The commands of the downstream port: GRANT, DOWNSTREAM_REQUEST_TAKEN,
DOWNSTREAM_RESPONSE, DOWNSTREAM_TIMEOUT, and COMMIT_WAIT_EXIT (chapters 07, 03 and 04). -/

namespace Sys2Proof.Machine

/-- GRANT (R143). -/
def execGrant (s : State) : Host.Outcome State Fault Refusal := event s grantIfDue

/-- The memory controller takes the offered request: the channel is freed and the tag's timer
starts, with the timeout it reads now as its own limit (R143, R147). -/
def takeDownRequest (t : Fin 32) (s : State) : State :=
  let s := s.onDown fun d => { d with channel := none }
  match tagState t s.down with
  | some (.outstanding r _) => setTag t (.outstanding r (some ⟨0, s.down.timeout⟩)) s
  | some (.quarantined _ _) | none => s

/-- DOWNSTREAM_REQUEST_TAKEN (R143); the next grant follows in the same step. -/
def execDownstreamRequestTaken (s : State) : Host.Outcome State Fault Refusal :=
  event s fun s =>
    match s.down.channel with
    | none => s
    | some t => grantIfDue (takeDownRequest t s)

/-- How a response of a status ends its request (R145). -/
def endOf (st : DownStatus) (data : LineData) : End :=
  match st with
  | .ok => .ok data
  | .error | .other => .error

/-- A response is taken: matched (R145), late (R149) or discarded as unmatched (R146). -/
def takeDownResponse (t : Fin 32) (kind : RwKind) (st : DownStatus) (data : LineData) (s : State) :
    State :=
  match tagState t s.down with
  | some (.outstanding r (some _)) =>
    if opKind r.op = kind then
      deliver r.owner (endOf st data) (latchIf (st == .other) .downstreamFault (freeTheTag t s))
    else latch .downstreamFault s
  | some (.quarantined k owner) =>
    if k = kind then deliverFreed owner (freeTheTag t s) else latch .downstreamFault s
  | some (.outstanding _ none) => latch .downstreamFault s
  | none => latch .downstreamFault s

/-- DOWNSTREAM_RESPONSE (R145, R146, R149). -/
def execDownstreamResponse (t : Fin 32) (kind : RwKind) (st : DownStatus) (data : LineData)
    (s : State) : Host.Outcome State Fault Refusal :=
  event s fun s => portFollow (controlFollow s (takeDownResponse t kind st data s))

/-- The timeout of a request is taken before its response: the tag is quarantined, the timeout
counted, DOWNSTREAM_FAULT latched, and the owner told ERROR by timeout (R148). -/
def timeOutTag (t : Fin 32) (r : DownReq) (s : State) : State :=
  let s := setTag t (.quarantined (opKind r.op) r.owner) s
  deliver r.owner .timeout (latch .downstreamFault (countTimeout s))

/-- DOWNSTREAM_TIMEOUT (R148): taken for a request whose timer runs with a non-zero limit (log 3). -/
def execDownstreamTimeout (t : Fin 32) (s : State) : Host.Outcome State Fault Refusal :=
  event s fun s =>
    match tagState t s.down with
    | some (.outstanding r (some tm)) =>
      if tm.limit = 0 then s else portFollow (controlFollow s (timeOutTag t r s))
    | some (.outstanding _ none) | some (.quarantined _ _) | none => s

/-- COMMIT_WAIT_EXIT (R62, R63). -/
def execCommitWaitExit (n : Fin 32) (s : State) : Host.Outcome State Fault Refusal :=
  event s fun s => if mayExit n s then grantIfDue (leaveCommitWait n s) else s

end Sys2Proof.Machine
end

