-- ==== Sys2Proof/Machine/HostTraffic.lean ====
section
/-! DEFINITION. The commands of the upstream line port and the admission side: REQUEST_TAKEN,
ADMISSION, FENCE_DEFERRAL, RESPONSE_OFFER, RESPONSE_TAKEN (chapters 05 and 06). -/

namespace Sys2Proof.Machine

/-- REQUEST_TAKEN (R115 to R121): the master offers a request; it is taken as soon as both queues
have room, and stays offered until then. -/
def execRequestTaken (r : HostRequest) (s : State) : Host.Outcome State Fault Refusal :=
  let s := s.onUp fun u => { u with offered := some (u.offered.getD r) }
  event s fun s => offerIfDue (takeOffered s)

/-- The request the admission side offers to the tracker, and whether it comes from the fence list
(R128). -/
def offeredToTracker (s : State) : Option (Accepted × Bool) :=
  if s.ckpt.fence then
    match s.up.queue with
    | [] => none
    | h :: _ =>
      if h.cls = .plain ∧ inWindow h.line s.cls = false
          ∧ (s.up.fenceList.any fun x => x.line == h.line) = false then some (h, false)
      else none
  else
    match s.up.fenceList with
    | f :: _ => some (f, true)
    | [] => s.up.queue.head?.map fun h => (h, false)

/-- The entry of an admitted request, BLOCKED until it is found eligible (R93). -/
def newEntry (n : Fin 32) (r : Accepted) : Entry where
  num := n
  tag := r.tag
  op := r.op
  line := r.line
  cls := r.cls
  seq := r.seq
  state := .blocked
  readData := none
  dtag := none
  status := none
  hold := false
  ctx := none

/-- Admission of a request into a FREE entry: it leaves its queue or list, joins the newest end of
its line chain, and takes its eligibility action if no older entry of the chain is not DONE (R93,
R94, R98). -/
def admitRequest (n : Fin 32) (r : Accepted) (fromList : Bool) (s : State) : State :=
  let s := s.onUp fun u =>
    if fromList then { u with fenceList := u.fenceList.drop 1 } else { u with queue := u.queue.drop 1 }
  releaseChain r.line (s.onEntries fun es => es ++ [newEntry n r])

/-- ADMISSION (R93, R128, R133). -/
def execAdmission (s : State) : Host.Outcome State Fault Refusal :=
  event s fun s =>
    match offeredToTracker s, freeEntry s with
    | some (r, fromList), some n => portFollow (takeOffered (admitRequest n r fromList s))
    | _, _ => s

/-- The admission queue head that R130 or R131 moves into the fence list: the fence is raised, the
list has room, and the head is PROTECTED, or names a line inside an enabled window or a line of the
list. -/
def deferrable (s : State) : Option Accepted :=
  match s.up.queue with
  | [] => none
  | h :: _ =>
    if s.ckpt.fence = true ∧ s.up.fenceList.length < Config.fenceCap
        ∧ (h.cls = .guarded ∨ inWindow h.line s.cls = true
            ∨ (s.up.fenceList.any fun x => x.line == h.line) = true) then some h
    else none

/-- FENCE_DEFERRAL (R130, R131). -/
def execFenceDeferral (s : State) : Host.Outcome State Fault Refusal :=
  event s fun s =>
    match deferrable s with
    | none => s
    | some h =>
      let s := s.onUp fun u => { u with queue := u.queue.drop 1, fenceList := u.fenceList ++ [h] }
      offerIfDue (takeOffered (countDeferral s))

/-- RESPONSE_OFFER (R105). -/
def execResponseOffer (s : State) : Host.Outcome State Fault Refusal := event s offerIfDue

/-- The upstream master takes the offered response: the entry becomes FREE and its tag leaves the
live-tag set, or the refusal item leaves its queue, its tag with it unless the refusal is PROTOCOL
(R106). -/
def takeResponse (q : Nat) (s : State) : State :=
  match s.entries.find? fun e => e.seq == q with
  | some e =>
    let s := s.onEntries fun es => es.filter fun x => x.seq != q
    s.onUp fun u => { u with channel := none, liveTags := u.liveTags.filter fun t => t != e.tag }
  | none =>
    match s.up.refusals.find? fun r => r.seq == q with
    | some r =>
      s.onUp fun u =>
        { u with
          channel := none
          refusals := u.refusals.filter fun x => x.seq != q
          liveTags := if r.status = .protocol then u.liveTags else u.liveTags.filter fun t => t != r.tag }
    | none => s.onUp fun u => { u with channel := none }

/-- RESPONSE_TAKEN (R106): room may let an offered request be taken, a rollback's settle may
complete (R72), and the channel makes its next offer in the same step (R105). -/
def execResponseTaken (s : State) : Host.Outcome State Fault Refusal :=
  event s fun s =>
    match s.up.channel with
    | none => s
    | some q => portFollow (controlFollow s (takeOffered (takeResponse q s)))

end Sys2Proof.Machine
end

