-- ==== Sys2Proof/Machine/Link.lean ====
section
/-! DEFINITION. The commands of the cascade link (chapter 08). -/

namespace Sys2Proof.Machine

/-- MESSAGE_SENT (R158): the oldest message of a side has been sent whole and leaves its list. -/
def execMessageSent (side : Side) (s : State) : Host.Outcome State Fault Refusal :=
  event s fun s => setSendList side ((sendList side s.casc).drop 1) s

/-- A bad message on a used side: discarded, counted, CASCADE_FAULT latched (R159). -/
def discardBad (s : State) : State :=
  latch .cascadeFault (s.onCasc fun c => { c with badCount := min (c.badCount + 1) Config.count16Max })

/-- BAD_MESSAGE (R159): a message whose bytes are not well formed; bytes that are well formed are
not this event. -/
def execBadMessage (side : Side) (bytes : List Byte) (s : State) : Host.Outcome State Fault Refusal :=
  event s fun s => if sideUsed side s.casc ∧ decodeMessage bytes = none then discardBad s else s

/-- The checks of R159 on a received message, in order: a side the role does not use; a bad message;
the wrong way for its kind; otherwise the role's rules. -/
def receive (side proper : Side) (m : Message) (handle : State → State) (s : State) : State :=
  if sideUsed side s.casc = false then s
  else if m.wellFormed = false then discardBad s
  else if side ≠ proper then latch .cascadeFault s
  else handle s

/-! ## PREPARE (R166) -/

/-- The first check a PREPARE fails at a follower, with its reason (R166). -/
def prepareRefusal (kind : OpKind) (number : CkptNumber) (s : State) : Option RefuseReason :=
  match kind with
  | .take =>
    if s.ckpt.ctrl ≠ .idle ∨ s.log.configured = false then some .state
    else if stackFull s = true ∧ s.ckpt.rolling = false then some .stackFull
    else none
  | .rollback =>
    if s.ckpt.ctrl ≠ .idle ∧ isHeld s = false then some .state
    else if (findCkpt number s).isNone then some .notFound
    else if targetLive number s = false then some .broken
    else none

/-- The goal a PREPARE names. -/
def goalOf (kind : OpKind) (number : CkptNumber) : Goal :=
  match kind with
  | .take => .take
  | .rollback => .rollback number

/-- A rollback begins at this unit: the unrestored list is cleared, the fence raised,
SETTLING(ROLLBACK) entered, and the wait list refused with FENCED (R70, log 9). -/
def beginRollback (k : CkptNumber) (source : Source) (s : State) : State :=
  fenceWaiting (setCtrl (.settling (.rollback k) source) (raiseFence (clearUnrestored s)))

/-- A follower's own controller on an accepted PREPARE (R13, R166). -/
def beginFollower (g : Goal) (s : State) : State :=
  match g with
  | .take => setCtrl (.settling .take .cascade) (raiseFence s)
  | .rollback k => beginRollback k .cascade s

/-- A follower accepts a PREPARE: the record is created, the hold timer starts, the PREPARE is
forwarded, and the operation begins here (R166). -/
def acceptPrepare (id : OpId) (g : Goal) (s : State) : State :=
  let s := s.onCasc fun c =>
    { c with
      agreement := some (newAgreement id g .cascade (if c.last then .notNeeded else .awaited) c.holdLimit) }
  beginFollower g (forwardDown (prepareOf id g) s)

/-- PREPARE taken from the UP side by a follower (R166). -/
def handlePrepare (id : OpId) (kind : OpKind) (number : CkptNumber) (s : State) : State :=
  match s.casc.agreement with
  | some _ => produce (.ready id (.refuse .state)) .up s
  | none =>
    match prepareRefusal kind number s with
    | some reason => setAbandoned id (produce (.ready id (.refuse reason)) .up s)
    | none =>
      let s := acceptPrepare id (goalOf kind number) s
      portFollow (controlFollow s s)

/-- PREPARE_RECEIVED (R166). -/
def execPrepareReceived (side : Side) (id : OpId) (kind : OpKind) (number : CkptNumber) (s : State) :
    Host.Outcome State Fault Refusal :=
  event s (receive side .up (.prepare id kind number) (handlePrepare id kind number))

/-! ## READY (R162, R167) -/

/-- READY refuses the agreement of a leader: the timer stops, the reason is recorded, ABANDON goes
down, and the agreement ends REFUSED (R162). -/
def leaderRefused (a : Agreement) (reason : RefuseReason) (s : State) : State :=
  let s := s.onCasc fun c => { c with lastRefusal := some reason }
  endBeforeGo a .refused (produce (.abandon a.id) .down s)

/-- READY taken by a leader (R162, R165). -/
def leaderReady (id : OpId) (v : ReadyVerdict) (s : State) : State :=
  match s.casc.agreement with
  | some a =>
    if id = a.id then
      if a.below = .awaited then
        match v with
        | .ok => modAgreement (fun a => { a with below := .ok, timer := none }) s
        | .refuse reason => leaderRefused a reason s
      else latch .cascadeFault s
    else latch .cascadeFault s
  | none => if id = s.casc.opId then s else latch .cascadeFault s

/-- READY from below taken by a follower (R167, R171). An id that is both the record's and the abandoned
one is judged as the record's (log 24). A READY(REFUSE) ends the wait for below READY, so that a further
READY of the id is in the wrong phase; R167 does not say so (log 27). -/
def followerReady (id : OpId) (v : ReadyVerdict) (s : State) : State :=
  match s.casc.agreement with
  | some a =>
    if id = a.id then
      if a.below = .awaited ∧ a.go = false then
        match v with
        | .ok => modAgreement (fun a => { a with below := .ok }) s
        | .refuse reason =>
          if a.readySent = .none then
            modAgreement (fun a => { a with below := .refused, readySent := .refuse })
              (produce (.ready id (.refuse reason)) .up s)
          else modAgreement (fun a => { a with below := .refused }) s
      else latch .cascadeFault s
    else if s.casc.abandoned = some id then s
    else latch .cascadeFault s
  | none => if s.casc.abandoned = some id then s else latch .cascadeFault s

/-- READY taken from the DOWN side, with what follows in the same step. -/
def handleReady (id : OpId) (v : ReadyVerdict) (s : State) : State :=
  let t := if s.casc.role = .leader then leaderReady id v s else followerReady id v s
  portFollow (controlFollow s t)

/-- READY_RECEIVED (R162, R165, R167, R171). -/
def execReadyReceived (side : Side) (id : OpId) (v : ReadyVerdict) (s : State) :
    Host.Outcome State Fault Refusal :=
  event s (receive side .down (.ready id v) (handleReady id v))

/-! ## GO (R169) -/

/-- The apply of an agreed take fails: next number still follows the GO number, nothing is pushed,
and the result is REFUSED (R4, R13). -/
def failApply (id : OpId) (number : CkptNumber) (s : State) : State :=
  let s := standDown (s.onCkpt fun c => { c with nextNumber := succNumber number })
  let s := latch .takeDone (writeResult (takeResult .cascade .refused (some number) (some id)) s)
  modAgreement (fun a => { a with own := some .failed }) s

/-- A follower applies an agreed take at GO (R13, R4). -/
def applyTake (id : OpId) (number : CkptNumber) (s : State) : State :=
  if stackFull s = true ∧ s.ckpt.rolling = false then failApply id number s
  else
    let s := if stackFull s then releaseOldest 1 s else s
    if numberHeld number s.ckpt.stack then failApply id number s
    else
      let s := pushCkpt number .cascade s
      let s := latch .takeDone (writeResult (takeResult .cascade .done (some number) (some id)) s)
      modAgreement (fun a => { a with own := some .done }) s

/-- A GO that belongs to an agreement the follower has left, or knows nothing of: CASCADE_FAULT,
DONE(FAILED) up, ABANDON down (R171). -/
def strayGo (id : OpId) (s : State) : State :=
  forwardDown (.abandon id) (produce (.done id .failed) .up (latch .cascadeFault s))

/-- The controller is in AGREEING. -/
def isAgreeing (s : State) : Bool :=
  match s.ckpt.ctrl with
  | .agreeing _ _ => true
  | .idle | .settling _ _ | .restoring _ | .held _ => false

/-- A follower applies GO: the hold timer stops, GO taken is noted, GO is forwarded with the number it
came with, and the take is applied or the walk to the record's target begins (R169; a GO for a rollback
that names another target: log 25). -/
def applyGo (a : Agreement) (number : CkptNumber) (s : State) : State :=
  let s := modAgreement (fun a => { a with go := true, timer := none }) s
  let s := forwardDown (.go a.id number) s
  match a.goal with
  | .take => applyTake a.id number s
  | .rollback k => startWalk k s

/-- GO taken from the UP side by a follower (R169, R171; the record's id comes before the abandoned one,
log 24). -/
def handleGo (id : OpId) (number : CkptNumber) (s : State) : State :=
  match s.casc.agreement with
  | some a =>
    if id = a.id then
      if isAgreeing s = true ∧ a.readySent = .ok ∧ a.go = false then
        portFollow (controlFollow s (applyGo a number s))
      else latch .cascadeFault s
    else strayGo id s
  | none => strayGo id s

/-- GO_RECEIVED (R169, R171). -/
def execGoReceived (side : Side) (id : OpId) (number : CkptNumber) (s : State) :
    Host.Outcome State Fault Refusal :=
  event s (receive side .up (.go id number) (handleGo id number))

/-! ## ABANDON and the hold timer (R168) -/

/-- A follower's agreement ends before GO: the fence is lowered, the controller returns to IDLE, the
result is written, the id becomes the abandoned id, the record is discarded (R168). -/
def leaveAgreement (a : Agreement) (o : ResultOutcome) (s : State) : State :=
  setAbandoned a.id (endBeforeGo a o s)

/-- ABANDON taken from the UP side by a follower (R168, R171; the record's id comes before the abandoned
one, log 24). -/
def handleAbandon (id : OpId) (s : State) : State :=
  match s.casc.agreement with
  | some a =>
    if id = a.id then
      if a.go then latch .cascadeFault s
      else leaveAgreement a .refused (forwardDown (.abandon id) s)
    else forwardDown (.abandon id) s
  | none => forwardDown (.abandon id) s

/-- ABANDON_RECEIVED (R168, R171). -/
def execAbandonReceived (side : Side) (id : OpId) (s : State) : Host.Outcome State Fault Refusal :=
  event s (receive side .up (.abandon id) (handleAbandon id))

/-- HOLD_TIMEOUT (R168): the hold timer of a follower's agreement expires before GO. -/
def execHoldTimeout (s : State) : Host.Outcome State Fault Refusal :=
  event s fun s =>
    match s.casc.agreement with
    | none => s
    | some a =>
      if s.casc.role = .follower ∧ a.go = false ∧ a.timer.isSome = true then
        leaveAgreement a .timeout s
      else s

/-- AGREEMENT_TIMEOUT (R162): the agreement timer of a leader expires before READY: ABANDON goes
down and the agreement ends TIMEOUT. -/
def execAgreementTimeout (s : State) : Host.Outcome State Fault Refusal :=
  event s fun s =>
    match s.casc.agreement with
    | none => s
    | some a =>
      if s.casc.role = .leader ∧ a.timer.isSome = true then
        portFollow (controlFollow s (endBeforeGo a .timeout (produce (.abandon a.id) .down s)))
      else s

/-! ## DONE (R164, R170) -/

/-- A DONE is taken as the below outcome; one not allowed for the kind latches CASCADE_FAULT and is
taken as FAILED (R164, R170). -/
def takeBelowDone (a : Agreement) (o : DoneOutcome) (s : State) : State :=
  if outcomeAllowed a.goal o then modAgreement (fun a => { a with belowDone := some o }) s
  else modAgreement (fun a => { a with belowDone := some .failed }) (latch .cascadeFault s)

/-- DONE taken by a leader (R164, R165; a second DONE: log 11). -/
def leaderDone (id : OpId) (o : DoneOutcome) (s : State) : State :=
  match s.casc.agreement with
  | some a =>
    if id = a.id then
      if a.go then (if a.belowDone.isSome then s else takeBelowDone a o s)
      else latch .cascadeFault s
    else latch .cascadeFault s
  | none => if id = s.casc.opId then s else latch .cascadeFault s

/-- DONE from below taken by a follower (R170, R171; the record's id comes before the abandoned one,
log 24). -/
def followerDone (id : OpId) (o : DoneOutcome) (s : State) : State :=
  match s.casc.agreement with
  | some a =>
    if id = a.id then
      if a.go = true ∧ a.belowDone.isNone = true then takeBelowDone a o s
      else latch .cascadeFault s
    else if s.casc.abandoned = some id then produce (.done id .failed) .up s
    else latch .cascadeFault s
  | none =>
    if s.casc.abandoned = some id then produce (.done id .failed) .up s else latch .cascadeFault s

/-- DONE taken from the DOWN side, with what follows in the same step. -/
def handleDone (id : OpId) (o : DoneOutcome) (s : State) : State :=
  let t := if s.casc.role = .leader then leaderDone id o s else followerDone id o s
  portFollow (controlFollow s t)

/-- DONE_RECEIVED (R164, R165, R170, R171). -/
def execDoneReceived (side : Side) (id : OpId) (o : DoneOutcome) (s : State) :
    Host.Outcome State Fault Refusal :=
  event s (receive side .down (.done id o) (handleDone id o))

/-! ## ASK (R173) -/

/-- ASK taken from the DOWN side: a leader latches the CASCADE flag and makes the trigger check, a
follower forwards it (R19, R20, R173). -/
def handleAsk (src : AskSource) (s : State) : State :=
  if s.casc.role = .leader then portFollow (triggerCheck (latchFlag .cascade s))
  else produceAsk src .up s

/-- ASK_RECEIVED (R19, R173). -/
def execAskReceived (side : Side) (src : AskSource) (s : State) : Host.Outcome State Fault Refusal :=
  event s (receive side .down (.ask src) (handleAsk src))

/-! ## Sends that are due -/

/-- LEADER_GO (R163). -/
def execLeaderGo (s : State) : Host.Outcome State Fault Refusal :=
  event s fun s =>
    let t := agreementEnd (leaderGo s)
    portFollow (if longOp s && !longOp t then triggerCheck t else t)

/-- READY_OK_SEND (R167). -/
def execReadyOkSend (s : State) : Host.Outcome State Fault Refusal := event s readyOk

/-- DONE_SEND (R170). -/
def execDoneSend (s : State) : Host.Outcome State Fault Refusal := event s doneSend

end Sys2Proof.Machine
end

