-- ==== Sys2Proof/Machine/Management.lean ====
section
/-! DEFINITION. The management port: transactions, bad and unknown frames, the configuration
commands, the status reads and the alert commands (chapter 09). -/

namespace Sys2Proof.Machine

/-! ## Transactions (R176, R177) -/

/-- TRANSACTION_START (R176): MCS_N falls; a waiting decoder begins a request phase. -/
def execTransactionStart (s : State) : Host.Outcome State Fault Refusal :=
  .next
    (if s.mgmt.mcsLow then s
     else
       s.onMgmt fun m =>
         { m with
           mcsLow := true
           decoder := if inReset s = false ∧ m.decoder = .waiting then .request else m.decoder })

/-- TRANSACTION_END (R177, R201): MCS_N rises; the decoder waits for a transaction, and the reset of
a WARM_RESET executed in this one begins. -/
def execTransactionEnd (s : State) : Host.Outcome State Fault Refusal :=
  .next
    (if s.mgmt.mcsLow then
       startPendingReset (s.onMgmt fun m => { m with mcsLow := false, decoder := .waiting })
     else s)

/-- BAD_FRAME (R178): a complete request frame that fails its check byte or its length; bytes not
judged so are not this event. -/
def execBadFrame (bytes : List Byte) (s : State) : Host.Outcome State Fault Refusal :=
  if judgeFrame bytes = .badFrame then onFrame s (refuse stBadFrame) else .next s

/-- UNKNOWN_COMMAND (R178). -/
def execUnknownCommand (bytes : List Byte) (s : State) : Host.Outcome State Fault Refusal :=
  if judgeFrame bytes = .unknown then onFrame s (refuse stUnknown) else .next s

/-! ## Configuration (R181 to R188) -/

/-- The configuration restriction holds (R181). -/
def configurable (s : State) : Bool :=
  s.ckpt.stack.isEmpty && s.ckpt.ctrl == .idle && s.casc.agreement.isNone

/-- A switch byte is 0 or 1 (R219). -/
def isSwitch (b : Byte) : Bool := b == 0 || b == 1

/-- Two runs of lines share a line. -/
def runsMeet (base count base' count' : Nat) : Bool :=
  decide (max base base' < min (base + count) (base' + count'))

/-- IDENTIFY (R182). -/
def execIdentify (s : State) : Host.Outcome State Fault Refusal :=
  onFrame s fun s => ⟨stOk, identifyPayload, s⟩

/-- The checks of SET_MEMORY_SIZE, in order (R183). -/
def checkMemorySize (size : Nat) (s : State) : Option Byte :=
  if configurable s = false then some stState
  else if size = 0 ∨ Config.maxLines < size then some stRange
  else if s.log.configured = true ∧ size < s.log.base + 2 * s.log.capacity then some stRange
  else if s.cls.windows.toList.any fun w => w.enable && decide (size < w.base + w.count) then some stRange
  else none

/-- SET_MEMORY_SIZE (R183, R122). -/
def execSetMemorySize (size : BitVec 40) (s : State) : Host.Outcome State Fault Refusal :=
  onFrame s fun s =>
    match checkMemorySize size.toNat s with
    | some st => refuse st s
    | none => done (s.onCls fun c => { c with memSize := size.toNat })

/-- An enabled window of another index shares a line with the run. -/
def meetsWindow (skip : Nat) (base count : Nat) (c : Classifier) : Bool :=
  (List.finRange 8).any fun i =>
    i.val != skip && (c.windows.get i).enable
      && runsMeet base count (c.windows.get i).base (c.windows.get i).count

/-- The run shares a line with a configured log area. -/
def meetsLog (base count : Nat) (l : Log) : Bool :=
  l.configured && runsMeet base count l.base (2 * l.capacity)

/-- The checks of SET_WINDOW, in order (R184). -/
def checkWindow (index enable : Byte) (base count : Nat) (s : State) : Option Byte :=
  if configurable s = false then some stState
  else if 8 ≤ index.toNat ∨ isSwitch enable = false ∨ Config.maxLines ≤ base ∨ Config.maxLines < count then
    some stRange
  else if enable = 1 ∧ (count = 0 ∨ s.cls.memSize < base + count) then some stRange
  else if enable = 1 ∧ (meetsWindow index.toNat base count s.cls = true ∨ meetsLog base count s.log = true) then
    some stOverlap
  else none

/-- SET_WINDOW (R184, R123). -/
def execSetWindow (index enable : Byte) (base count : BitVec 40) (s : State) :
    Host.Outcome State Fault Refusal :=
  onFrame s fun s =>
    match checkWindow index enable base.toNat count.toNat s with
    | some st => refuse st s
    | none =>
      done (s.onCls fun c =>
        { c with
          windows := c.windows.set (index.toNat % 8) ⟨enable == 1, base.toNat, count.toNat⟩
            (Nat.mod_lt _ (by decide)) })

/-- A log capacity: a power of two from 16 to 2^26 (R27). -/
def isCapacity (c : BitVec 32) : Bool :=
  decide (16 ≤ c.toNat) && decide (c.toNat ≤ Config.recordsMax) && (c &&& (c - 1)) == 0

/-- An enabled window shares a line with the run. -/
def meetsAnyWindow (base count : Nat) (c : Classifier) : Bool :=
  c.windows.toList.any fun w => w.enable && runsMeet base count w.base w.count

/-- The checks of SET_LOG, in order (R185, R28). -/
def checkLog (base : Nat) (capacity : BitVec 32) (policy : Byte) (watermark : Nat) (s : State) :
    Option Byte :=
  if configurable s = false then some stState
  else if s.log.allocated ≠ s.log.head then some stState
  else if isSwitch policy = false ∨ base % 2 = 1 ∨ Config.maxLines ≤ base ∨ isCapacity capacity = false
      ∨ capacity.toNat < watermark ∨ s.cls.memSize < base + 2 * capacity.toNat then some stRange
  else if meetsAnyWindow base (2 * capacity.toNat) s.cls then some stOverlap
  else none

/-- The log after an accepted SET_LOG (R28): a watermark of 0 is three quarters of the capacity. -/
def configuredLog (base capacity : Nat) (policy : Policy) (stallLimit watermark : Nat) (l : Log) : Log :=
  { l with
    configured := true
    base := base
    capacity := capacity
    policy := policy
    stallLimit := stallLimit
    watermark := if watermark = 0 then capacity * 3 / 4 else watermark
    tail := 0
    head := 0
    allocated := 0 }

/-- SET_LOG (R185, R28). -/
def execSetLog (base : BitVec 40) (capacity : BitVec 32) (policy : Byte) (stallLimit : BitVec 16)
    (watermark : BitVec 32) (s : State) : Host.Outcome State Fault Refusal :=
  onFrame s fun s =>
    match checkLog base.toNat capacity policy watermark.toNat s with
    | some st => refuse st s
    | none =>
      done (s.onLog (configuredLog base.toNat capacity.toNat (if policy = 1 then .break else .stall)
        stallLimit.toNat watermark.toNat))

/-- A weight is from 1 to 15. -/
def isWeight (w : Byte) : Bool := decide (1 ≤ w.toNat) && decide (w.toNat ≤ 15)

/-- The checks of SET_DOWNSTREAM, in order (R186). -/
def checkDownstream (limit host preserve restore : Byte) (s : State) : Option Byte :=
  if configurable s = false then some stState
  else if limit.toNat = 0 ∨ 32 < limit.toNat ∨ isWeight host = false ∨ isWeight preserve = false
      ∨ isWeight restore = false then some stRange
  else none

/-- SET_DOWNSTREAM (R186, R151); a raised limit may allow a grant in the same step. -/
def execSetDownstream (limit host preserve restore : Byte) (timeout : BitVec 16) (s : State) :
    Host.Outcome State Fault Refusal :=
  onFrame s fun s =>
    match checkDownstream limit host preserve restore s with
    | some st => refuse st s
    | none =>
      done (grantIfDue (s.onDown fun d =>
        { d with
          limit := limit.toNat
          wHost := host.toNat
          wPreserve := preserve.toNat
          wRestore := restore.toNat
          timeout := timeout.toNat }))

/-- The trigger settings of SET_TRIGGERS, with the interval timer reloaded or stopped and the TIMER
flag cleared (R23, R18). -/
def setTriggers (lineEnable : Bool) (interval : Nat) (autoTake rolling : Bool) (s : State) : State :=
  s.onCkpt fun c =>
    { c with
      lineEnable := lineEnable
      interval := interval
      autoTake := autoTake
      rolling := rolling
      intervalCount := interval
      intervalMicros := 0
      timerFlag := false }

/-- A set flag is servable now and was not before. -/
def newlyServable (before s : State) : Bool :=
  [Source.line, .timer, .cascade].any fun x => servable x s && !servable x before

/-- SET_TRIGGERS (R187, R23): in HELD a set flag made servable latches TRIGGER_MISSED (R21); a
trigger take may start (R20). The TIMER flag is cleared before the trigger check, so a TIMER flag set
before starts no take: here R18, R23, R187 and R211 disagree with R20's sentence on enabling auto-take,
and the model follows the four (log 22). -/
def execSetTriggers (lineEnable : Byte) (interval : BitVec 16) (autoTake rolling : Byte) (s : State) :
    Host.Outcome State Fault Refusal :=
  onFrame s fun s =>
    if isSwitch lineEnable = false ∨ isSwitch autoTake = false ∨ isSwitch rolling = false then refuse stRange s
    else
      let t := setTriggers (lineEnable == 1) interval.toNat (autoTake == 1) (rolling == 1) s
      let t := latchIf (isHeld t && newlyServable s t) .triggerMissed t
      done (portFollow (triggerCheck t))

/-- The role a byte names (R219). -/
def roleOf (b : Byte) : Option Role :=
  if b = 0 then some .solo else if b = 1 then some .leader else if b = 2 then some .follower else none

/-- SET_CASCADE (R188, R156). -/
def execSetCascade (role last : Byte) (agreementLimit holdLimit : BitVec 16) (s : State) :
    Host.Outcome State Fault Refusal :=
  onFrame s fun s =>
    if configurable s = false then refuse stState s
    else
      match roleOf role with
      | none => refuse stRange s
      | some r =>
        if isSwitch last = false ∨ agreementLimit = 0 ∨ holdLimit = 0 then refuse stRange s
        else
          done (s.onCasc fun c =>
            { c with
              role := r
              last := last == 1
              agreementLimit := agreementLimit.toNat
              holdLimit := holdLimit.toNat
              abandoned := none
              upList := []
              downList := [] })

/-! ## Status reads (R193 to R197) -/

/-- READ_STATUS (R193). -/
def execReadStatus (s : State) : Host.Outcome State Fault Refusal :=
  onFrame s fun s => ⟨stOk, statusPayload s, s⟩

/-- READ_CHECKPOINTS (R194). -/
def execReadCheckpoints (s : State) : Host.Outcome State Fault Refusal :=
  onFrame s fun s => ⟨stOk, checkpointsPayload s, s⟩

/-- READ_RESULT (R195). -/
def execReadResult (s : State) : Host.Outcome State Fault Refusal :=
  onFrame s fun s => ⟨stOk, resultPayload s.mgmt.result, s⟩

/-- The controller is in RESTORING. -/
def isRestoring (s : State) : Bool :=
  match s.ckpt.ctrl with
  | .restoring _ => true
  | .idle | .settling _ _ | .agreeing _ _ | .held _ => false

/-- READ_UNRESTORED (R196, R69): the payload is taken before the list is cleared. -/
def execReadUnrestored (option : Option Byte) (s : State) : Host.Outcome State Fault Refusal :=
  onFrame s fun s =>
    let o := option.getD 0
    if isSwitch o = false then refuse stRange s
    else if o = 0 then ⟨stOk, unrestoredPayload s, s⟩
    else if isRestoring s then refuse stState s
    else ⟨stOk, unrestoredPayload s, clearUnrestored s⟩

/-- READ_COUNTERS (R197). -/
def execReadCounters (s : State) : Host.Outcome State Fault Refusal :=
  onFrame s fun s => ⟨stOk, countersPayload s.mgmt.counters, s⟩

/-- CLEAR_COUNTERS (R198): the eight counters and the bad-message count. -/
def execClearCounters (s : State) : Host.Outcome State Fault Refusal :=
  onFrame s fun s =>
    done ((onCounters (fun _ => Counters.zero) s).onCasc fun c => { c with badCount := 0 })

/-! ## Alerts (R199, R200) -/

/-- SET_ALERT_MASK (R199). -/
def execSetAlertMask (mask : BitVec 16) (s : State) : Host.Outcome State Fault Refusal :=
  onFrame s fun s =>
    if mask.extractLsb' 10 6 = 0 then
      done (s.onMgmt fun m => { m with mask := mask.extractLsb' 0 10 })
    else refuse stRange s

/-- CLEAR_ALERTS (R200). -/
def execClearAlerts (causes : BitVec 16) (s : State) : Host.Outcome State Fault Refusal :=
  onFrame s fun s =>
    if causes.extractLsb' 10 6 = 0 then
      done (s.onMgmt fun m => { m with latches := m.latches &&& ~~~ (causes.extractLsb' 0 10) })
    else refuse stRange s

end Sys2Proof.Machine
end

