-- ==== Sys2Proof/Machine/Operations.lean ====
section
/-! DEFINITION. The commands that run checkpoint operations: TAKE, RELEASE, ROLLBACK, RELEASE_FENCE
(R189 to R192). -/

namespace Sys2Proof.Machine

/-- The checks of TAKE, in order (R189). -/
def checkTake (s : State) : Option Byte :=
  if s.casc.role = .follower then some stState
  else if s.casc.agreement.isSome then some stBusy
  else if isHeld s then some stState
  else if s.ckpt.ctrl ≠ .idle then some stBusy
  else if s.log.configured = false then some stNoLog
  else if stackFull s then some stStackFull
  else none

/-- TAKE (R189, R9): answered ACCEPTED in the step the take starts, or starts and ends (R7, R180). -/
def execTake (s : State) : Host.Outcome State Fault Refusal :=
  onFrame s fun s =>
    match checkTake s with
    | some st => refuse st s
    | none => ⟨stAccepted, [], settle (startTake .command s)⟩

/-- RELEASE is allowed in this controller state (R190, check 1). -/
def releasable (s : State) : Bool :=
  match s.ckpt.ctrl with
  | .idle | .settling .take _ | .agreeing .take _ => true
  | .settling (.rollback _) _ | .agreeing (.rollback _) _ | .restoring _ | .held _ => false

/-- RELEASE (R190, R14). -/
def execRelease (n : Byte) (s : State) : Host.Outcome State Fault Refusal :=
  onFrame s fun s =>
    if releasable s = false then refuse stState s
    else if n = 0 ∨ s.ckpt.stack.length < n.toNat then refuse stRange s
    else done (portFollow (releaseOldest n.toNat s))

/-- The checks of ROLLBACK, in order (R191). -/
def checkRollback (k : CkptNumber) (s : State) : Option Byte :=
  if s.casc.role = .follower then some stState
  else if s.casc.agreement.isSome then some stBusy
  else if s.ckpt.ctrl ≠ .idle ∧ isHeld s = false then some stBusy
  else if k = 0 then some stRange
  else if (findCkpt k s).isNone then some stNotFound
  else if targetLive k s = false then some stBroken
  else none

/-- The acceptance of ROLLBACK k (R70, R71). -/
def acceptRollback (k : CkptNumber) (s : State) : State :=
  agreeIfLeader (.rollback k) .command (beginRollback k .command s)

/-- ROLLBACK (R191): a settle already complete ends in the same step (R7, R71). -/
def execRollback (k : CkptNumber) (s : State) : Host.Outcome State Fault Refusal :=
  onFrame s fun s =>
    match checkRollback k s with
    | some st => refuse st s
    | none =>
      let s := acceptRollback k s
      ⟨stAccepted, [], portFollow (controlFollow s s)⟩

/-- RELEASE_FENCE (R192, R85). -/
def execReleaseFence (s : State) : Host.Outcome State Fault Refusal :=
  onFrame s fun s =>
    if isHeld s then done (portFollow (controlFollow s (standDown s))) else refuse stState s

end Sys2Proof.Machine
end

