-- ==== Sys2Proof/Machine/Resets.lean ====
section
/-! DEFINITION. WARM_RESET, the end of its reset, and the reset lines PORST_N and WRST_N (R201, R25,
R26). -/

namespace Sys2Proof.Machine

/-- WARM_RESET (R201): answered OK; the reset begins when MCS_N rises. -/
def execWarmReset (s : State) : Host.Outcome State Fault Refusal :=
  onFrame s fun s => done (s.onMgmt fun m => { m with warmPending := true })

/-- COMMAND_RESET_END (R201): the reset WARM_RESET caused ends. Taken from the queue it stands for the end
of the 10 µs, whatever microseconds of them have passed (DESIGN CHOICE, log 3); on an empty queue it is
taken once 10 µs are counted. -/
def execCommandResetEnd (ckptReq : Bool) (s : State) : Host.Outcome State Fault Refusal :=
  .next
    (if s.pins.commandReset.isSome then
       resume ckptReq (s.onPins fun p => { p with commandReset := none })
     else s)

/-- PORST_N_ASSERT (R25). Asserted during the reset of WARM_RESET, it ends that one (log 26). -/
def execPorstNAssert (s : State) : Host.Outcome State Fault Refusal :=
  .next ((powerOnReset s).onPins fun p => { p with porstLow := true })

/-- PORST_N_RELEASE (R25). -/
def execPorstNRelease (ckptReq : Bool) (s : State) : Host.Outcome State Fault Refusal :=
  .next
    (if s.pins.porstLow then resume ckptReq (s.onPins fun p => { p with porstLow := false }) else s)

/-- WRST_N_ASSERT (R26). Asserted during the reset of WARM_RESET, it leaves that one's 10 µs running
(log 26). -/
def execWrstNAssert (s : State) : Host.Outcome State Fault Refusal :=
  .next ((warmReset s).onPins fun p => { p with wrstLow := true })

/-- WRST_N_RELEASE (R26). -/
def execWrstNRelease (ckptReq : Bool) (s : State) : Host.Outcome State Fault Refusal :=
  .next
    (if s.pins.wrstLow then resume ckptReq (s.onPins fun p => { p with wrstLow := false }) else s)

end Sys2Proof.Machine
end

