-- ==== Sys2Proof/Machine/Dispatch.lean ====
section
/-! DEFINITION. One arm per command: the meaning it runs. -/

namespace Sys2Proof.Machine

def exec (i : Instr) (s : State) : Host.Outcome State Fault Refusal :=
  match i with
  | .requestTaken r => Sys2Proof.Machine.execRequestTaken r s
  | .admission => Sys2Proof.Machine.execAdmission s
  | .fenceDeferral => Sys2Proof.Machine.execFenceDeferral s
  | .grant => Sys2Proof.Machine.execGrant s
  | .downstreamRequestTaken => Sys2Proof.Machine.execDownstreamRequestTaken s
  | .downstreamResponse tag kind status data => Sys2Proof.Machine.execDownstreamResponse tag kind status data s
  | .downstreamTimeout tag => Sys2Proof.Machine.execDownstreamTimeout tag s
  | .commitWaitExit entry => Sys2Proof.Machine.execCommitWaitExit entry s
  | .responseOffer => Sys2Proof.Machine.execResponseOffer s
  | .responseTaken => Sys2Proof.Machine.execResponseTaken s
  | .takeSettled => Sys2Proof.Machine.execTakeSettled s
  | .triggerTakeStart => Sys2Proof.Machine.execTriggerTakeStart s
  | .rollbackSettled => Sys2Proof.Machine.execRollbackSettled s
  | .stallLimitExpiry => Sys2Proof.Machine.execStallLimitExpiry s
  | .ckptReqRise => Sys2Proof.Machine.execCkptReqRise s
  | .intervalExpiry => Sys2Proof.Machine.execIntervalExpiry s
  | .messageSent side => Sys2Proof.Machine.execMessageSent side s
  | .badMessage side bytes => Sys2Proof.Machine.execBadMessage side bytes s
  | .prepareReceived side id kind number => Sys2Proof.Machine.execPrepareReceived side id kind number s
  | .readyReceived side id verdict => Sys2Proof.Machine.execReadyReceived side id verdict s
  | .goReceived side id number => Sys2Proof.Machine.execGoReceived side id number s
  | .abandonReceived side id => Sys2Proof.Machine.execAbandonReceived side id s
  | .doneReceived side id outcome => Sys2Proof.Machine.execDoneReceived side id outcome s
  | .askReceived side source => Sys2Proof.Machine.execAskReceived side source s
  | .agreementTimeout => Sys2Proof.Machine.execAgreementTimeout s
  | .holdTimeout => Sys2Proof.Machine.execHoldTimeout s
  | .leaderGo => Sys2Proof.Machine.execLeaderGo s
  | .readyOkSend => Sys2Proof.Machine.execReadyOkSend s
  | .doneSend => Sys2Proof.Machine.execDoneSend s
  | .transactionStart => Sys2Proof.Machine.execTransactionStart s
  | .transactionEnd => Sys2Proof.Machine.execTransactionEnd s
  | .badFrame bytes => Sys2Proof.Machine.execBadFrame bytes s
  | .unknownCommand bytes => Sys2Proof.Machine.execUnknownCommand bytes s
  | .identify => Sys2Proof.Machine.execIdentify s
  | .setMemorySize size => Sys2Proof.Machine.execSetMemorySize size s
  | .setWindow index enable base count => Sys2Proof.Machine.execSetWindow index enable base count s
  | .setLog base capacity policy stallLimit watermark => Sys2Proof.Machine.execSetLog base capacity policy stallLimit watermark s
  | .setDownstream limit host preserve restore timeout => Sys2Proof.Machine.execSetDownstream limit host preserve restore timeout s
  | .setTriggers lineEnable interval autoTake rolling => Sys2Proof.Machine.execSetTriggers lineEnable interval autoTake rolling s
  | .setCascade role last agreementLimit holdLimit => Sys2Proof.Machine.execSetCascade role last agreementLimit holdLimit s
  | .take => Sys2Proof.Machine.execTake s
  | .release n => Sys2Proof.Machine.execRelease n s
  | .rollback k => Sys2Proof.Machine.execRollback k s
  | .releaseFence => Sys2Proof.Machine.execReleaseFence s
  | .readStatus => Sys2Proof.Machine.execReadStatus s
  | .readCheckpoints => Sys2Proof.Machine.execReadCheckpoints s
  | .readResult => Sys2Proof.Machine.execReadResult s
  | .readUnrestored option => Sys2Proof.Machine.execReadUnrestored option s
  | .readCounters => Sys2Proof.Machine.execReadCounters s
  | .clearCounters => Sys2Proof.Machine.execClearCounters s
  | .setAlertMask mask => Sys2Proof.Machine.execSetAlertMask mask s
  | .clearAlerts causes => Sys2Proof.Machine.execClearAlerts causes s
  | .warmReset => Sys2Proof.Machine.execWarmReset s
  | .commandResetEnd ckptReq => Sys2Proof.Machine.execCommandResetEnd ckptReq s
  | .porstNAssert => Sys2Proof.Machine.execPorstNAssert s
  | .porstNRelease ckptReq => Sys2Proof.Machine.execPorstNRelease ckptReq s
  | .wrstNAssert => Sys2Proof.Machine.execWrstNAssert s
  | .wrstNRelease ckptReq => Sys2Proof.Machine.execWrstNRelease ckptReq s

end Sys2Proof.Machine
end

