-- ==== Sys2Proof/Machine/Tick.lean ====
section
/-! DEFINITION. What happens while no command waits (log 2): a step of the unit's own that is due,
an expiry that is due, or the passing of one microsecond (R18, R40, R147, R162, R168, R201). -/

namespace Sys2Proof.Machine

/-- An entry that may leave COMMIT_WAIT (R62). Of several, the first in admission order goes first: the
spec states no order (log 23). -/
def dueExit (s : State) : Option (Fin 32) := (s.entries.map Entry.num).find? fun n => mayExit n s

/-- A timer has reached its non-zero limit. -/
def timerDue (t : Timer) : Bool := t.limit != 0 && decide (t.limit ≤ t.value)

/-- A tag whose timer has reached its limit (R147). -/
def dueTag (d : Downstream) : Option (Fin 32) :=
  (d.tags.find? fun u =>
    match u.state with
    | .outstanding _ (some t) => timerDue t
    | .outstanding _ none | .quarantined _ _ => false).map TagUse.num

/-- The expiry of the agreement or hold timer, if it has reached its limit (R162, R168). -/
def dueCascade (c : Cascade) : Option Instr :=
  match c.agreement with
  | none => none
  | some a =>
    match a.timer with
    | none => none
    | some t =>
      if timerDue t then
        match c.role with
        | .leader => some .agreementTimeout
        | .follower => some .holdTimeout
        | .solo => none
      else none

/-- An expiry that is due. -/
def dueExpiry (s : State) : Option Instr :=
  if s.log.waitList.isEmpty = false ∧ s.log.stallLimit ≠ 0 ∧ s.log.stallLimit ≤ s.log.stallClock then
    some .stallLimitExpiry
  else
    match dueTag s.down with
    | some t => some (.downstreamTimeout t)
    | none =>
      match dueCascade s.casc with
      | some c => some c
      | none =>
        if s.ckpt.interval ≠ 0 ∧ s.ckpt.intervalCount = 0 then some .intervalExpiry else none

/-- The step of the unit's own that is due while no command waits: a COMMIT_WAIT exit, a deferral, an
admission, then an expiry; during a reset, only the end of the 10 µs command reset. -/
def dueCommand (s : State) : Option Instr :=
  if inReset s then
    match s.pins.commandReset with
    | some n => if Config.commandResetMicros ≤ n then some (.commandResetEnd s.ckpt.ckptLevel) else none
    | none => none
  else
    match dueExit s with
    | some n => some (.commitWaitExit n)
    | none =>
      if (deferrable s).isSome then some .fenceDeferral
      else if (offeredToTracker s).isSome ∧ (freeEntry s).isSome then some .admission
      else dueExpiry s

/-- A timer one microsecond later. -/
def tickTimer (t : Timer) : Timer := { t with value := t.value + 1 }

/-- A tag one microsecond later: its timer runs once its request has been taken (R147). -/
def tickTag (u : TagUse) : TagUse :=
  match u.state with
  | .outstanding r (some t) => { u with state := .outstanding r (some (tickTimer t)) }
  | .outstanding _ none | .quarantined _ _ => u

/-- The interval timer one microsecond later: it counts milliseconds down while the interval is not
0 (R18). -/
def tickInterval (c : Controller) : Controller :=
  if c.interval = 0 then c
  else if c.intervalMicros + 1 < 1000 then { c with intervalMicros := c.intervalMicros + 1 }
  else { c with intervalMicros := 0, intervalCount := c.intervalCount - 1 }

/-- The stall clock one microsecond later, counted in STALL_TIME while the wait list is non-empty
(R40). -/
def tickStall (s : State) : State :=
  if s.log.waitList.isEmpty then s
  else countStallTime 1 (s.onLog fun l => { l with stallClock := l.stallClock + 1 })

/-- One microsecond passes. During a reset only the command reset is timed. -/
def passMicrosecond (s : State) : State :=
  if inReset s then s.onPins fun p => { p with commandReset := p.commandReset.map (· + 1) }
  else
    let s := (tickStall s).onCkpt tickInterval
    let s := s.onDown fun d => { d with tags := d.tags.map tickTag }
    modAgreement (fun a => { a with timer := a.timer.map tickTimer }) s

end Sys2Proof.Machine
end

