-- ==== Sys2Proof/Safety.lean ====
section
/-! DEFINITION. The terms in which claims speak: when the unit listens, what a following step finds
still, and the laws of the part that every step keeps (R1, R2, R3, R29, R69, R91, R135, R141, R158). -/

namespace Sys2Proof.Machine

/-! ## Situations -/

/-- A management frame received now is executed and no reset is asserted, and the decoder stands at d
after it: in the request phase of an open transaction the frame is answered in it (R176); with none
open it stands for a whole transaction of its own, with no reset pending (log 6). -/
abbrev Listening (s : State) (d : Decoder) : Prop :=
  inReset s = false
    ∧ ((s.mgmt.decoder = .request ∧ d = .answered)
      ∨ (s.mgmt.decoder = .waiting ∧ s.mgmt.warmPending = false ∧ d = .waiting))

/-- The port is in the request phase of an open transaction and no reset is asserted: a frame received now
is executed (R176). -/
abbrev InRequest (s : State) : Prop := inReset s = false ∧ s.mgmt.decoder = .request

/-- The state once a frame's answer is built: the response stands and the decoder is at d; nothing
else changes (R176). -/
def answered (d : Decoder) (status : Byte) (payload : List Byte) (s : State) : State :=
  { s with mgmt := { s.mgmt with decoder := d, response := some ⟨status, payload⟩ } }

/-- The answer of a frame stands in a state. -/
abbrev Answers (d : Decoder) (status : Byte) (payload : List Byte) (t : State) : Prop :=
  t.mgmt.decoder = d ∧ t.mgmt.response = some ⟨status, payload⟩

/-- Both line-port channels are occupied: a request is offered downstream and a response upstream, so
no grant and no offer follows an event. -/
abbrev ChannelsBusy (s : State) : Prop := s.down.channel.isSome = true ∧ s.up.channel.isSome = true

/-- No grant and no offer follows an event that readies no response: a request is offered downstream, and
upstream a response is offered or none is ready. -/
abbrev PortsStill (s : State) : Prop :=
  s.down.channel.isSome = true
    ∧ (s.up.channel.isSome = true ∨ (s.up.refusals = [] ∧ ∀ e ∈ s.entries, e.state ≠ .done))

/-- The controller is IDLE and no agreement is in progress: no settle and no cascade send follows an
event. -/
abbrev AtRest (s : State) : Prop := s.ckpt.ctrl = .idle ∧ s.casc.agreement = none

/-- The configuration restriction holds (R181). -/
abbrev Unrestricted (s : State) : Prop :=
  s.ckpt.stack = [] ∧ s.ckpt.ctrl = .idle ∧ s.casc.agreement = none

/-- No trigger flag is set. -/
abbrev NoFlags (s : State) : Prop :=
  s.ckpt.lineFlag = false ∧ s.ckpt.timerFlag = false ∧ s.ckpt.cascadeFlag = false

/-- The entry n is the lowest-numbered FREE entry (R93). -/
abbrev LowestFreeEntry (n : Fin 32) (s : State) : Prop :=
  (∀ e ∈ s.entries, e.num ≠ n) ∧ ∀ m < n, ∃ e ∈ s.entries, e.num = m

/-- The admission side offers the request r to the tracker, and u is the port without it: with the fence
raised, a PLAIN head outside every enabled window whose line is not on the fence list; with it lowered,
the fence list in order, then the head (R128, R133). -/
abbrev OffersToTracker (s : State) (r : Accepted) (u : Upstream) : Prop :=
  (s.ckpt.fence = true ∧ r.cls = .plain ∧ inWindow r.line s.cls = false
      ∧ (∀ x ∈ s.up.fenceList, x.line ≠ r.line)
      ∧ s.up.queue = r :: u.queue ∧ u = { s.up with queue := u.queue })
  ∨ (s.ckpt.fence = false ∧ s.up.fenceList = r :: u.fenceList ∧ u = { s.up with fenceList := u.fenceList })
  ∨ (s.ckpt.fence = false ∧ s.up.fenceList = [] ∧ s.up.queue = r :: u.queue
      ∧ u = { s.up with queue := u.queue })

/-- The tag t is the lowest-numbered FREE tag below the outstanding limit (R142). -/
abbrev LowestFreeTag (t : Fin 32) (d : Downstream) : Prop :=
  t.val < d.limit ∧ (∀ u ∈ d.tags, u.num ≠ t) ∧ ∀ m < t, ∃ u ∈ d.tags, u.num = m

/-- No settle is due: a take that settles has an unsettled tracker, a rollback that settles lacks its
stronger condition (R10, R72). -/
abbrev NoSettleDue (s : State) : Prop :=
  (∀ src, s.ckpt.ctrl = .settling .take src → settled s = false)
    ∧ ∀ k src, s.ckpt.ctrl = .settling (.rollback k) src → rollbackSettled s = false

/-- No cascade send and no end of an agreement is due: GO at a leader, READY(OK) or DONE at a follower, the
result of a leader (R163, R164, R167, R170). -/
abbrev NoSendDue (s : State) : Prop :=
  ∀ a, s.casc.agreement = some a →
    (s.casc.role = .leader → a.go = false → a.settled = false ∨ a.below ≠ .ok)
    ∧ (s.casc.role = .follower → a.go = false →
      a.settled = false ∨ a.readySent ≠ .none ∨ (a.below ≠ .ok ∧ a.below ≠ .notNeeded))
    ∧ (a.go = true → a.own = none ∨ (a.belowDone = none ∧ (s.casc.role = .follower → s.casc.last = false)))

/-! ## What is due while no command waits -/

/-- The entry may leave COMMIT_WAIT: its capture is not quarantined and head has passed its position
(R62, log 8). -/
abbrev MayLeave (s : State) (e : Entry) : Prop :=
  e.state = .commitWait ∧ ∃ c ∈ e.ctx, c.captureQuarantined = false
    ∧ (s.log.allocated - s.log.head).toNat ≤ (c.position - s.log.head).toNat

/-- The admission queue's head belongs in the fence list, which has room (R130, R131). -/
abbrev DeferralDue (s : State) : Prop :=
  s.ckpt.fence = true ∧ s.up.fenceList.length < 8 ∧ ∃ h ∈ s.up.queue.head?, h.cls = .guarded
    ∨ (∃ w ∈ s.cls.windows.toList, w.enable = true ∧ w.base ≤ h.line ∧ h.line < w.base + w.count)
    ∨ ∃ x ∈ s.up.fenceList, x.line = h.line

/-- A request is offered to the tracker and an entry is FREE (R93, R128, R133). -/
abbrev AdmissionDue (s : State) : Prop :=
  (∃ r u, OffersToTracker s r u) ∧ ∃ n : Fin 32, ∀ e ∈ s.entries, e.num ≠ n

/-- A timer stands at or beyond its limit, which is not 0. -/
abbrev Expired (t : Timer) : Prop := t.limit ≠ 0 ∧ t.limit ≤ t.value

/-- The stall clock stands at or beyond its limit while an entry waits (R40). -/
abbrev StallDue (s : State) : Prop :=
  s.log.waitList ≠ [] ∧ s.log.stallLimit ≠ 0 ∧ s.log.stallLimit ≤ s.log.stallClock

/-- The tag's timer has expired (R147). -/
abbrev TagDue (u : TagUse) : Prop := ∃ r t, u.state = .outstanding r (some t) ∧ Expired t

/-- The agreement timer of a leader or the hold timer of a follower has expired (R162, R168). -/
abbrev AgreementDue (s : State) : Prop :=
  s.casc.role ≠ .solo ∧ ∃ a ∈ s.casc.agreement, ∃ t ∈ a.timer, Expired t

/-- The interval timer runs and its count is 0 (R18). -/
abbrev IntervalDue (s : State) : Prop := s.ckpt.interval ≠ 0 ∧ s.ckpt.intervalCount = 0

/-! ## Laws of the part -/

/-- The capacities of R135, R91, R141, R158 and R69: queue, fence list and refusal queue; entries and
tags of distinct numbers, so at most 32 each; send lists; the unrestored list, its lines distinct,
and its count; the bad-message count (R159). -/
abbrev WithinCapacity (s : State) : Prop :=
  s.up.queue.length ≤ 16 ∧ s.up.fenceList.length ≤ 8 ∧ s.up.refusals.length ≤ 4
    ∧ (s.entries.map Entry.num).Nodup ∧ (s.down.tags.map TagUse.num).Nodup
    ∧ s.casc.upList.length ≤ 4 ∧ s.casc.downList.length ≤ 4
    ∧ s.restore.unrestored.length ≤ 16 ∧ s.restore.unrestored.Nodup ∧ s.restore.overflow ≤ 65535
    ∧ s.casc.badCount ≤ 65535

/-- A take is under way that will push without a further look at the stack's depth: it settles or
agrees in the SOLO or LEADER role, or a leader's agreement for it has not sent GO (R8). -/
def takeUnderWay (s : State) : Bool :=
  (match s.ckpt.ctrl with
   | .settling .take _ | .agreeing .take _ => s.casc.role != .follower
   | .idle | .settling (.rollback _) _ | .agreeing (.rollback _) _ | .restoring _ | .held _ => false)
  || (match s.casc.agreement with
      | some a => s.casc.role == .leader && a.goal == .take && !a.go
      | none => false)

/-- The laws of the checkpoint stack (R1, R2, R4): at most 8 records, and fewer while a take is under
way; distinct numbers from 1 to 65535; next number not 0; the BROKEN records a run at the oldest
end. -/
abbrev StackLaw (s : State) : Prop :=
  s.ckpt.stack.length ≤ 8 ∧ (takeUnderWay s = true → s.ckpt.stack.length < 8)
    ∧ (s.ckpt.stack.map CkptRecord.number).Nodup ∧ (∀ r ∈ s.ckpt.stack, r.number ≠ 0)
    ∧ s.ckpt.nextNumber ≠ 0
    ∧ ∀ r ∈ s.ckpt.stack.dropWhile (fun r => r.state == .broken), r.state = .live

/-- The law of the log's positions (R29) and of the marks (R2): as distances from tail, tail, head,
allocated and tail + capacity stand in this order; tail is head while the stack is empty, and the
oldest mark otherwise; the marks do not decrease and none is above head. -/
abbrev PositionLaw (s : State) : Prop :=
  (s.log.head - s.log.tail).toNat ≤ (s.log.allocated - s.log.tail).toNat
    ∧ (s.log.allocated - s.log.tail).toNat ≤ s.log.capacity ∧ s.log.capacity ≤ 2 ^ 26
    ∧ (s.ckpt.stack = [] → s.log.tail = s.log.head)
    ∧ (∀ r ∈ s.ckpt.stack.head?, r.mark = s.log.tail)
    ∧ (s.ckpt.stack.map fun r => (r.mark - s.log.tail).toNat).Pairwise (· ≤ ·)
    ∧ ∀ r ∈ s.ckpt.stack, (r.mark - s.log.tail).toNat ≤ (s.log.head - s.log.tail).toNat

/-- Every record's records field is the distance from its mark to the next record's mark, and the
current checkpoint's to head (R3). -/
def recordsAgree (head : Position) : List CkptRecord → Bool
  | [] => true
  | [r] => r.records == (head - r.mark).toNat
  | r :: r' :: rest => r.records == (r'.mark - r.mark).toNat && recordsAgree head (r' :: rest)

/-- The law of the records fields (R3), with the position law it rests on. -/
abbrev RecordsLaw (s : State) : Prop := PositionLaw s ∧ recordsAgree s.log.head s.ckpt.stack = true

/-- The law of the filter (R45): a set has one line in a way, and a line has one way. -/
abbrev FilterLaw (s : State) : Prop :=
  (s.filter.map fun w => (filterSet w.line, w.way)).Nodup ∧ (s.filter.map FilterWay.line).Nodup

/-! ## The status payload by its bytes (section 11.5) -/

/-- Controller state, qualifier, source and target as READ_STATUS shows them (R221). -/
def shownCtrl : Ctrl → Nat × Nat × Nat × Nat
  | .idle => (0, 0, 0, 0)
  | .settling .take src => (1, 1, sourceCode src, 0)
  | .settling (.rollback k) src => (1, 2, sourceCode src, k.toNat)
  | .agreeing .take src => (2, 1, sourceCode src, 0)
  | .agreeing (.rollback k) src => (2, 2, sourceCode src, k.toNat)
  | .restoring k => (3, 0, 0, k.toNat)
  | .held .corrupt => (4, 1, 0, 0)
  | .held .interrupted => (4, 2, 0, 0)

/-- How many entries stand in a state. -/
def countState (st : EntryState) (s : State) : Nat := s.entries.countP fun e => e.state == st

/-- The fields of the status payload: first byte, length and value (section 11.5). -/
def statusTable (s : State) : List (Nat × Nat × Nat) :=
  let c := shownCtrl s.ckpt.ctrl
  [(0, 1, c.1), (1, 1, c.2.1), (2, 1, c.2.2.1), (3, 2, c.2.2.2), (5, 1, s.ckpt.fence.toNat),
    (6, 1, s.ckpt.stack.length), (7, 2, s.ckpt.generation.toNat),
    (9, 1, s.ckpt.lineFlag.toNat + 2 * s.ckpt.timerFlag.toNat + 4 * s.ckpt.cascadeFlag.toNat),
    (10, 1, s.ckpt.lineEnable.toNat + 2 * s.ckpt.autoTake.toNat + 4 * s.ckpt.rolling.toNat),
    (11, 2, s.ckpt.interval), (13, 2, s.ckpt.intervalCount), (15, 1, 0),
    (16, 1, s.log.configured.toNat), (17, 1, if s.log.policy = .break then 1 else 0),
    (18, 2, s.log.stallLimit), (20, 5, s.log.base), (25, 4, s.log.capacity), (29, 4, s.log.watermark),
    (33, 4, s.log.tail.toNat), (37, 4, s.log.head.toNat), (41, 4, s.log.allocated.toNat),
    (45, 4, (s.log.allocated - s.log.tail).toNat), (49, 1, s.log.waitList.length),
    (50, 4, min s.log.stallClock (2 ^ 32 - 1)),
    (54, 1, s.up.liveTags.length), (55, 1, s.up.queue.length), (56, 1, s.up.fenceList.length),
    (57, 1, s.up.refusals.length), (58, 5, s.cls.memSize)]
  ++ ((List.finRange 8).flatMap fun i =>
    [(63 + 11 * i.val, 1, (s.cls.windows.get i).enable.toNat),
      (64 + 11 * i.val, 5, (s.cls.windows.get i).base),
      (69 + 11 * i.val, 5, (s.cls.windows.get i).count)])
  ++ [(151, 1, s.entries.length), (152, 1, 32 - s.entries.length), (153, 1, countState .blocked s),
    (154, 1, countState .logWait s), (155, 1, countState .capturing s),
    (156, 1, countState .recording s), (157, 1, countState .commitWait s),
    (158, 1, countState .issuing s), (159, 1, countState .done s),
    (160, 1, (settled s).toNat + 2 * (rollbackSettled s).toNat),
    (161, 1, s.down.hostReady.length), (162, 1, s.down.preserveReady.length),
    (163, 1, s.down.restoreReady.length), (164, 1, s.down.tags.countP isOutstanding),
    (165, 1, s.down.tags.countP fun u => !isOutstanding u), (166, 1, s.down.limit),
    (167, 1, s.down.wHost), (168, 1, s.down.wPreserve), (169, 1, s.down.wRestore),
    (170, 2, s.down.timeout),
    (172, 1, roleCode s.casc.role), (173, 1, s.casc.last.toNat), (174, 2, s.casc.agreementLimit),
    (176, 2, s.casc.holdLimit), (178, 1, s.casc.agreement.isSome.toNat),
    (179, 1, (s.casc.agreement.map fun a => a.id.toNat).getD 0),
    (180, 1, (s.casc.agreement.map fun a => if a.goal = .take then 1 else 2).getD 0),
    (181, 2, (s.casc.agreement.map fun a => goalTarget a.goal).getD 0),
    (183, 1, (s.casc.agreement.map agreementPhase).getD 0),
    (184, 1, ((s.casc.agreement.bind Agreement.belowDone).map fun o => outcomeRank o + 1).getD 0),
    (185, 2, ((s.casc.agreement.bind Agreement.timer).map Timer.value).getD 0),
    (187, 1, s.casc.opId.toNat), (188, 1, s.casc.abandoned.isSome.toNat),
    (189, 1, (s.casc.abandoned.map BitVec.toNat).getD 0),
    (190, 1, (s.casc.lastRefusal.map reasonCode).getD 0), (191, 2, s.casc.badCount),
    (193, 1, s.casc.upList.length), (194, 1, s.casc.downList.length),
    (195, 2, s.mgmt.latches.toNat), (197, 2, s.mgmt.mask.toNat), (199, 1, (alertAsserted s).toNat)]

end Sys2Proof.Machine
end

