-- ==== Sys2Proof/WellFormed.lean ====
section
/-! DEFINITION. When a command is one the outside can send: its operands are values the port or
line can carry, and an event named for a failing check fails that check. -/

namespace Sys2Proof

/-- A command is well formed. Line addresses are 34-bit (R91); the bytes of BAD_FRAME and
UNKNOWN_COMMAND are judged so by R178; a bad message is bad and the others are well formed (R157). -/
def Instr.wellFormed : Instr → Bool
  | .requestTaken r => decide (r.line < Config.maxLines)
  | .badMessage _ bytes => decodeMessage bytes == none
  | .prepareReceived _ id kind number => (Message.prepare id kind number).wellFormed
  | .goReceived _ id number => (Message.go id number).wellFormed
  | .badFrame bytes => judgeFrame bytes == .badFrame
  | .unknownCommand bytes => judgeFrame bytes == .unknown
  | .admission | .fenceDeferral | .grant | .downstreamRequestTaken | .downstreamResponse _ _ _ _
  | .downstreamTimeout _ | .commitWaitExit _ | .responseOffer | .responseTaken | .takeSettled
  | .triggerTakeStart | .rollbackSettled | .stallLimitExpiry | .ckptReqRise | .intervalExpiry
  | .messageSent _ | .readyReceived _ _ _ | .abandonReceived _ _ | .doneReceived _ _ _
  | .askReceived _ _ | .agreementTimeout | .holdTimeout | .leaderGo | .readyOkSend | .doneSend
  | .transactionStart | .transactionEnd | .identify | .setMemorySize _ | .setWindow _ _ _ _
  | .setLog _ _ _ _ _ | .setDownstream _ _ _ _ _ | .setTriggers _ _ _ _ | .setCascade _ _ _ _
  | .take | .release _ | .rollback _ | .releaseFence | .readStatus | .readCheckpoints | .readResult
  | .readUnrestored _ | .readCounters | .clearCounters | .setAlertMask _ | .clearAlerts _
  | .warmReset | .commandResetEnd _ | .porstNAssert | .porstNRelease _ | .wrstNAssert
  | .wrstNRelease _ => true

end Sys2Proof
end

