-- ==== Sys2Proof/Certificates/Slice0/Obligations.lean ====
section
/-! DEFINITION. The statements for the provers: the numbered rules of spec/, family by family, and the
laws every step keeps. -/

open Sys2Proof Sys2Proof.Machine

/-! ## Steps, reset, time -/

/-- A step runs the command at the front of the queue on the state with the queue's rest. -/
def Obligations.StepRunsFrontCommand : Prop :=
  ∀ (c : Instr) (s : State), step { s with pending := c :: s.pending } = exec c s

/-- On an empty queue a step takes the step of the unit's own that is due, in this order: the exit of the
first entry that may leave COMMIT_WAIT, a fence deferral, an admission, then an expiry: the stall limit,
the first tag whose timer has expired, the agreement or hold timer, the interval; during a reset only the
end of the command reset, after 10 µs. That the unit does this on an empty queue and in this order is the
model's choice (log 2, log 23). -/
def Obligations.EmptyQueueStep : Prop :=
  ∀ s : State, s.pending = [] →
    (inReset s = true → ∀ n, s.pins.commandReset = some n → 10 ≤ n →
      step s = exec (.commandResetEnd s.ckpt.ckptLevel) s)
    ∧ (inReset s = false → (s.entries.map Entry.num).Nodup →
      let exit := ∃ e ∈ s.entries, MayLeave s e
      let own := exit ∨ DeferralDue s ∨ AdmissionDue s
      let tag := ∃ u ∈ s.down.tags, TagDue u
      (∀ older e newer, s.entries = older ++ e :: newer → MayLeave s e → (∀ x ∈ older, ¬ MayLeave s x) →
        step s = exec (.commitWaitExit e.num) s)
      ∧ (¬ exit → DeferralDue s → step s = exec .fenceDeferral s)
      ∧ (¬ exit → ¬ DeferralDue s → AdmissionDue s → step s = exec .admission s)
      ∧ (¬ own → StallDue s → step s = exec .stallLimitExpiry s)
      ∧ (¬ own → ¬ StallDue s → ∀ before u rest, s.down.tags = before ++ u :: rest → TagDue u →
          (∀ x ∈ before, ¬ TagDue x) →
        step s = exec (.downstreamTimeout u.num) s)
      ∧ (¬ own → ¬ StallDue s → ¬ tag → AgreementDue s →
        (s.casc.role = .leader → step s = exec .agreementTimeout s)
        ∧ (s.casc.role = .follower → step s = exec .holdTimeout s))
      ∧ (¬ own → ¬ StallDue s → ¬ tag → ¬ AgreementDue s → IntervalDue s →
        step s = exec .intervalExpiry s))

/-- With nothing due on an empty queue one microsecond passes: while the wait list is not empty the stall
clock and STALL_TIME step (R40), each taken downstream request's timer steps (R147), so does a running
agreement or hold timer (R162, R168), the interval timer counts a millisecond down each 1000 µs (R18),
and nothing else changes; during a reset the command reset's time alone passes. That a step on an empty
queue is a microsecond is the model's choice (log 2). -/
def Obligations.MicrosecondPasses : Prop :=
  ∀ s : State, s.pending = [] →
    let later (m : Timer) : Timer := { m with value := m.value + 1 }
    (inReset s = true → (∀ n, s.pins.commandReset = some n → n < 10) →
      step s = .next { s with pins := { s.pins with commandReset := s.pins.commandReset.map (· + 1) } })
    ∧ (inReset s = false → (s.entries.map Entry.num).Nodup → (∀ e ∈ s.entries, ¬ MayLeave s e) →
        ¬ DeferralDue s → ¬ AdmissionDue s → ¬ StallDue s → (∀ u ∈ s.down.tags, ¬ TagDue u) →
        ¬ AgreementDue s → ¬ IntervalDue s →
      step s = .next { s with
        log := { s.log with
          stallClock := if s.log.waitList = [] then s.log.stallClock else s.log.stallClock + 1 }
        mgmt := { s.mgmt with counters := { s.mgmt.counters with
          stallTime := if s.log.waitList = [] then s.mgmt.counters.stallTime
            else satInc s.mgmt.counters.stallTime } }
        down := { s.down with tags := s.down.tags.map fun u =>
          match u.state with
          | .outstanding r (some m) => { u with state := .outstanding r (some (later m)) }
          | .outstanding _ none | .quarantined _ _ => u }
        casc := { s.casc with agreement := s.casc.agreement.map fun a =>
          { a with timer := a.timer.map later } }
        ckpt := if s.ckpt.interval = 0 then s.ckpt
          else if s.ckpt.intervalMicros < 999 then
            { s.ckpt with intervalMicros := s.ckpt.intervalMicros + 1 }
          else { s.ckpt with intervalMicros := 0, intervalCount := s.ckpt.intervalCount - 1 } })

/-- Values after power-on reset, block by block (R25, R28, R44, R67, R90, R112, R136, R151, R153, R174,
R202, R216), and an empty queue of commands. -/
def Obligations.ResetValues : Prop :=
  State.reset.ckpt.stack = [] ∧ State.reset.ckpt.nextNumber = 1 ∧ State.reset.ckpt.generation = 0
    ∧ State.reset.ckpt.fence = false ∧ State.reset.ckpt.ctrl = .idle ∧ NoFlags State.reset
    ∧ State.reset.ckpt.lineEnable = false ∧ State.reset.ckpt.autoTake = false
    ∧ State.reset.ckpt.rolling = false ∧ State.reset.ckpt.interval = 0
    ∧ State.reset.log.configured = false ∧ State.reset.log.base = 0 ∧ State.reset.log.capacity = 0
    ∧ State.reset.log.watermark = 0 ∧ State.reset.log.policy = .stall
    ∧ State.reset.log.stallLimit = 1000 ∧ State.reset.log.tail = 0 ∧ State.reset.log.head = 0
    ∧ State.reset.log.allocated = 0 ∧ State.reset.log.finished = [] ∧ State.reset.log.waitList = []
    ∧ State.reset.log.stallClock = 0
    ∧ State.reset.filter = [] ∧ State.reset.entries = []
    ∧ State.reset.restore.walk = none ∧ State.reset.restore.unrestored = []
    ∧ State.reset.restore.overflow = 0
    ∧ State.reset.up.liveTags = [] ∧ State.reset.up.refusals = [] ∧ State.reset.up.queue = []
    ∧ State.reset.up.fenceList = [] ∧ State.reset.up.channel = none
    ∧ State.reset.cls.memSize = 2 ^ 34
    ∧ (∀ w ∈ State.reset.cls.windows.toList, w = ⟨false, 0, 0⟩)
    ∧ State.reset.down.hostReady = [] ∧ State.reset.down.preserveReady = []
    ∧ State.reset.down.restoreReady = [] ∧ State.reset.down.tags = []
    ∧ State.reset.down.channel = none ∧ State.reset.down.turn = .host ∧ State.reset.down.used = 0
    ∧ State.reset.down.limit = 16 ∧ State.reset.down.wHost = 8 ∧ State.reset.down.wPreserve = 4
    ∧ State.reset.down.wRestore = 4 ∧ State.reset.down.timeout = 2000
    ∧ State.reset.casc.role = .solo ∧ State.reset.casc.last = false
    ∧ State.reset.casc.agreementLimit = 500 ∧ State.reset.casc.holdLimit = 2000
    ∧ State.reset.casc.opId = 0 ∧ State.reset.casc.agreement = none
    ∧ State.reset.casc.abandoned = none ∧ State.reset.casc.lastRefusal = none
    ∧ State.reset.casc.badCount = 0 ∧ State.reset.casc.upList = [] ∧ State.reset.casc.downList = []
    ∧ State.reset.mgmt.latches = 0 ∧ State.reset.mgmt.mask = BitVec.allOnes 10
    ∧ State.reset.mgmt.counters = ⟨0, 0, 0, 0, 0, 0, 0, 0⟩ ∧ State.reset.mgmt.result = none
    ∧ alertAsserted State.reset = false ∧ State.reset.pending = []

/-! ## Laws every step keeps -/

/-- The laws hold right after reset. -/
def Obligations.LawsAtReset : Prop :=
  WithinCapacity State.reset ∧ StackLaw State.reset ∧ RecordsLaw State.reset ∧ FilterLaw State.reset

/-- Every step keeps the capacities of the part (R135, R91, R141, R158, R69, R159). -/
def Obligations.CapacitiesKept : Prop :=
  ∀ s t : State, WithinCapacity s → step s = .next t → WithinCapacity t

/-- Every step keeps the laws of the checkpoint stack (R1, R2, R4). -/
def Obligations.StackLawKept : Prop :=
  ∀ s t : State, StackLaw s → step s = .next t → StackLaw t

/-- Every step keeps the order of tail, head, allocated and the marks (R29, R2), and the records fields
equal to the distances between the marks and head (R3). -/
def Obligations.RecordsLawKept : Prop :=
  ∀ s t : State, RecordsLaw s → step s = .next t → RecordsLaw t

/-- Every step keeps at most one way per line and one line per way of a set (R45). -/
def Obligations.FilterLawKept : Prop :=
  ∀ s t : State, FilterLaw s → step s = .next t → FilterLaw t

/-! ## Formats -/

/-- A request frame laid out by R219 has the sum 0x55 and is judged the command it encodes (R178). -/
def Obligations.FrameRoundTrip : Prop :=
  ∀ (c : Instr) (bytes : List Byte), encodeFrame c = some bytes →
    sumBytes bytes = 0x55 ∧ judgeFrame bytes = .good c

/-- A message laid out by R220 is six bytes of sum 0x55 and reads back as itself (R157); a PREPARE for a
take carries the number 0. -/
def Obligations.MessageRoundTrip : Prop :=
  ∀ m : Message, m.wellFormed = true → (∀ id k, m = .prepare id .take k → k = 0) →
    (encodeMessage m).length = 6 ∧ sumBytes (encodeMessage m) = 0x55
      ∧ decodeMessage (encodeMessage m) = some m

/-- The fields of an assembled header line stand where R217 puts them, and the record passes the checks
of R77 and R78 for a line of the memory inside an enabled window. A header is judged corrupt exactly where
its mark differs, its flags byte is neither 0 nor 1, its position field is not p, its line address is at or
above the memory size or in no enabled window, or it is poisoned and its check value differs (R77, R217).
The check value of the nine bytes 31 to 39 is FC891918 (R218). -/
def Obligations.RecordRoundTrip : Prop :=
  (∀ (number : CkptNumber) (position : Position) (line : Nat) (old : LineData) (c : Classifier),
    line < 2 ^ 34 →
    let h := assembleHeader number position line (some old)
    let p := assembleHeader number position line none
    headerMark h = 0x454B5231 ∧ headerFlags h = 0 ∧ headerNumber h = number
      ∧ headerPosition h = position ∧ headerAddr h = line
      ∧ h.extractLsb' 448 24 = 0 ∧ h.extractLsb' 416 16 = 0 ∧ h.extractLsb' 64 280 = 0
      ∧ h.extractLsb' 0 32 = 0
      ∧ headerCheck h = crc32 (headerTopOf h ++ old)
      ∧ headerMark p = 0x454B5231 ∧ headerFlags p = 1 ∧ headerNumber p = number
      ∧ headerPosition p = position ∧ headerAddr p = line ∧ headerCheck p = crc32 (headerTopOf p)
      ∧ (line < c.memSize → inWindow line c = true →
          headerCorrupt h position c = false ∧ headerCorrupt p position c = false))
  ∧ (∀ (h : LineData) (p : Position) (c : Classifier),
    let flags := h.extractLsb' 472 8
    let line := (h.extractLsb' 344 40).toNat
    headerCorrupt h p c = true ↔
      h.extractLsb' 480 32 ≠ 0x454B5231 ∨ (flags ≠ 0 ∧ flags ≠ 1) ∨ h.extractLsb' 384 32 ≠ p
        ∨ c.memSize ≤ line
        ∨ (∀ w ∈ c.windows.toList, w.enable = true → ¬ (w.base ≤ line ∧ line < w.base + w.count))
        ∨ (flags = 1 ∧ h.extractLsb' 32 32 ≠ crc32 (h.extractLsb' 64 448)))
  ∧ crc32 (0x313233343536373839#72) = 0xFC891918#32

/-- The number a take assigns (R4): next number if no record holds it; never a number a record holds,
while the stack holds at most 8 records. -/
def Obligations.AssignedNumber : Prop :=
  ∀ s : State, s.ckpt.stack.length ≤ 8 →
    ((∀ r ∈ s.ckpt.stack, r.number ≠ s.ckpt.nextNumber) → assignedNumber s = s.ckpt.nextNumber)
    ∧ (∀ r ∈ s.ckpt.stack, r.number ≠ assignedNumber s)
    ∧ (s.ckpt.nextNumber ≠ 0 → assignedNumber s ≠ 0)

/-! ## The management port -/

/-- TRANSACTION_START opens a request phase for a waiting decoder (R176), is not taken by a port in
reset or waiting for MCS_N (R177); TRANSACTION_END returns the decoder to waiting; WARM_RESET is
answered OK and its reset begins when MCS_N rises, with the effects of WRST_N (R201). A frame after the
one executed, or while the port waits for MCS_N, is ignored. With no transaction open, a frame stands
for a whole one (log 6). -/
def Obligations.Transactions : Prop :=
  ∀ s : State,
    (s.mgmt.mcsLow = false → inReset s = false → s.mgmt.decoder = .waiting →
      exec .transactionStart s
        = .next { s with mgmt := { s.mgmt with mcsLow := true, decoder := .request } })
    ∧ (s.mgmt.mcsLow = false → inReset s = true →
      exec .transactionStart s = .next { s with mgmt := { s.mgmt with mcsLow := true } })
    ∧ (s.mgmt.mcsLow = true → s.mgmt.warmPending = false →
      exec .transactionEnd s
        = .next { s with mgmt := { s.mgmt with mcsLow := false, decoder := .waiting } })
    ∧ (inReset s = false → s.mgmt.decoder = .request →
      exec .warmReset s
        = .next (answered .answered 0x00 [] { s with mgmt := { s.mgmt with warmPending := true } }))
    ∧ (∀ w, exec .wrstNAssert s = .next w →
      (s.mgmt.mcsLow = true → s.mgmt.warmPending = true →
        exec .transactionEnd s
          = .next { w with
              mgmt := { w.mgmt with mcsLow := false }
              pins := { s.pins with commandReset := some 0 } })
      ∧ (inReset s = false → s.mgmt.decoder = .waiting →
        exec .warmReset s = .next { w with pins := { s.pins with commandReset := some 0 } }))
    ∧ (s.mgmt.decoder = .answered ∨ s.mgmt.decoder = .ignoring →
      ∀ c, (encodeFrame c).isSome = true → exec c s = .next s)

/-- The first four checks of R178 on a complete frame, in order, and the answers BAD_FRAME and
UNKNOWN_COMMAND, which change nothing else. That a frame outside a transaction is answered as a whole
one is the model's choice (log 6). -/
def Obligations.FrameChecks : Prop :=
  ∀ (s : State) (d : Decoder) (code len : Byte) (rest : List Byte), rest.length = len.toNat + 1 →
    let bytes := code :: len :: rest
    (sumBytes bytes ≠ 0x55 → judgeFrame bytes = .badFrame)
    ∧ (sumBytes bytes = 0x55 → 32 < len.toNat → judgeFrame bytes = .badFrame)
    ∧ (sumBytes bytes = 0x55 → len.toNat ≤ 32 → code ∉ commandCodes → judgeFrame bytes = .unknown)
    ∧ (sumBytes bytes = 0x55 → len.toNat ≤ 32 → code ∈ commandCodes →
        parseParams code (rest.take len.toNat) = none → judgeFrame bytes = .badFrame)
    ∧ (Listening s d →
        (judgeFrame bytes = .badFrame → exec (.badFrame bytes) s = .next (answered d 0x20 [] s))
        ∧ (judgeFrame bytes = .unknown → exec (.unknownCommand bytes) s = .next (answered d 0x21 [] s)))

/-- IDENTIFY returns the payload of R182 in every state, role and after every reset; READ_CHECKPOINTS the
depth and the records oldest first (R194); READ_RESULT the result record with the presence of its
optional fields (R195); READ_COUNTERS the eight counters in order (R197). Each is answered OK and none
changes any state. -/
def Obligations.PlainReads : Prop :=
  (∀ s : State, InRequest s →
      exec .identify s = .next (answered .answered 0x00
        [0x01, 0x9C, 1, 64, 16, 8, 4, 32, 8, 0x04, 0x00, 4, 8, 0x04, 0x00, 0x00, 0x00, 32, 16, 8, 4] s))
  ∧ (∀ s : State, InRequest s →
      exec .readCheckpoints s
        = .next (answered .answered 0x00
            (be 1 s.ckpt.stack.length ++ s.ckpt.stack.flatMap fun r =>
              be 2 r.number.toNat ++ be 4 r.mark.toNat ++ [if r.state = .live then 1 else 2]
                ++ be 4 r.records
                ++ [(match r.source with | .command => 1 | .line => 2 | .timer => 3 | .cascade => 4 : Byte)]) s)
      ∧ (s.mgmt.result = none →
        exec .readResult s = .next (answered .answered 0x00 (List.replicate 16 0) s))
      ∧ (∀ r, s.mgmt.result = some r →
        exec .readResult s
          = .next (answered .answered 0x00
              (([1, if r.kind = .take then 1 else 2,
                (match r.source with | .command => 1 | .line => 2 | .timer => 3 | .cascade => 4),
                (match r.outcome with
                  | .done => 1 | .partly => 2 | .corrupt => 3 | .refused => 4 | .timeout => 5
                  | .split => 6 | .interrupted => 7 | .missed => 8),
                (if r.number.isSome then 1 else 0) + (if r.cascadeId.isSome then 2 else 0)] : List Byte)
                ++ be 2 ((r.number.map BitVec.toNat).getD 0) ++ be 4 r.applied ++ be 4 r.unrestored
                ++ [r.cascadeId.getD 0]) s))
      ∧ exec .readCounters s
        = .next (answered .answered 0x00
            ([s.mgmt.counters.protectedWrites, s.mgmt.counters.filterHits,
              s.mgmt.counters.recordsWritten, s.mgmt.counters.filterDisplacements,
              s.mgmt.counters.fenceDeferrals, s.mgmt.counters.stallTime,
              s.mgmt.counters.triggersMerged, s.mgmt.counters.downstreamTimeouts].flatMap
                fun c => be 4 c.toNat) s))

/-- READ_STATUS is answered OK with 200 bytes that hold the fields of section 11.5 at their places, and
changes nothing else. That a frame outside a transaction is answered as a whole one is the model's
choice (log 6). The phase codes of a follower that settles are the model's inference (log 14). -/
def Obligations.StatusPayload : Prop :=
  ∀ (s : State) (d : Decoder), Listening s d →
    ∃ p : List Byte, exec .readStatus s = .next (answered d 0x00 p s) ∧ p.length = 200
      ∧ ∀ f ∈ statusTable s, (p.drop f.1).take f.2.1 = be f.2.1 f.2.2

/-- READ_UNRESTORED returns the list and its count; option 1 clears both after the payload is taken, and
is refused with STATE in RESTORING; an option above 1 is refused with RANGE (R196). CLEAR_COUNTERS sets
the eight counters and the bad-message count to 0 and changes no latch (R198). -/
def Obligations.ReadUnrestoredClearCounters : Prop :=
  (∀ (s : State) (o : Option Byte), InRequest s →
      let p := be 1 s.restore.unrestored.length ++ s.restore.unrestored.flatMap (be 5)
        ++ be 2 s.restore.overflow
      (o = none ∨ o = some 0 → exec (.readUnrestored o) s = .next (answered .answered 0x00 p s))
      ∧ (o = some 1 → (∀ k, s.ckpt.ctrl ≠ .restoring k) →
          exec (.readUnrestored o) s
            = .next (answered .answered 0x00 p { s with restore := { s.restore with unrestored := [], overflow := 0 } }))
      ∧ (o = some 1 → (∃ k, s.ckpt.ctrl = .restoring k) →
          exec (.readUnrestored o) s = .next (answered .answered 0x11 [] s))
      ∧ (∀ b, o = some b → 1 < b.toNat → exec (.readUnrestored o) s = .next (answered .answered 0x12 [] s)))
  ∧ (∀ s : State, InRequest s →
      exec .clearCounters s = .next (answered .answered 0x00 []
        { s with
          mgmt := { s.mgmt with counters := ⟨0, 0, 0, 0, 0, 0, 0, 0⟩ }
          casc := { s.casc with badCount := 0 } }))

/-- SET_ALERT_MASK replaces the mask (R199) and CLEAR_ALERTS clears each named cause and no other
(R200); ALERT_N is then asserted exactly while a cause is latched and not masked; a cause outside the
ten is refused with RANGE. -/
def Obligations.AlertCommands : Prop :=
  ∀ (s : State) (causes : BitVec 16), InRequest s →
    ((∃ i, 10 ≤ i ∧ causes.getLsbD i = true) →
      exec (.setAlertMask causes) s = .next (answered .answered 0x12 [] s)
      ∧ exec (.clearAlerts causes) s = .next (answered .answered 0x12 [] s))
    ∧ ((∀ i, 10 ≤ i → causes.getLsbD i = false) →
      (∃ m, exec (.setAlertMask causes) s
            = .next (answered .answered 0x00 [] { s with mgmt := { s.mgmt with mask := m } })
          ∧ (∀ i < 10, m.getLsbD i = causes.getLsbD i)
          ∧ (alertAsserted { s with mgmt := { s.mgmt with mask := m } } = true ↔
              ∃ i < 10, s.mgmt.latches.getLsbD i = true ∧ causes.getLsbD i = false))
      ∧ (∃ l, exec (.clearAlerts causes) s
            = .next (answered .answered 0x00 [] { s with mgmt := { s.mgmt with latches := l } })
          ∧ (∀ i < 10, l.getLsbD i = (s.mgmt.latches.getLsbD i && !causes.getLsbD i))
          ∧ (alertAsserted { s with mgmt := { s.mgmt with latches := l } } = true ↔
              ∃ i < 10, l.getLsbD i = true ∧ s.mgmt.mask.getLsbD i = false)))

/-- SET_MEMORY_SIZE: its checks in order, and the new size (R183). SET_WINDOW: its checks in order, and the
window replaced whole (R184). That a frame outside a transaction is answered as a whole one is the
model's choice (log 6). -/
def Obligations.SetMemorySizeAndWindow : Prop :=
  (∀ (s : State) (d : Decoder) (size : BitVec 40), Listening s d →
      let bad := size.toNat = 0 ∨ 2 ^ 34 < size.toNat
        ∨ (s.log.configured = true ∧ size.toNat < s.log.base + 2 * s.log.capacity)
        ∨ ∃ w ∈ s.cls.windows.toList, w.enable = true ∧ size.toNat < w.base + w.count
      (¬ Unrestricted s → exec (.setMemorySize size) s = .next (answered d 0x11 [] s))
      ∧ (Unrestricted s → bad → exec (.setMemorySize size) s = .next (answered d 0x12 [] s))
      ∧ (Unrestricted s → ¬ bad →
          exec (.setMemorySize size) s
            = .next (answered d 0x00 [] { s with cls := { s.cls with memSize := size.toNat } })))
  ∧ (∀ (s : State) (d : Decoder) (index enable : Byte) (base count : BitVec 40), Listening s d →
      let fields := index.toNat < 8 ∧ (enable = 0 ∨ enable = 1) ∧ base.toNat < 2 ^ 34 ∧ count.toNat ≤ 2 ^ 34
      let fits := enable = 1 → 1 ≤ count.toNat ∧ base.toNat + count.toNat ≤ s.cls.memSize
      let alone := enable = 1 → ∀ line, base.toNat ≤ line → line < base.toNat + count.toNat →
        (∀ i : Fin 8, i.val ≠ index.toNat → (s.cls.windows.get i).enable = true →
          ¬ ((s.cls.windows.get i).base ≤ line
            ∧ line < (s.cls.windows.get i).base + (s.cls.windows.get i).count))
        ∧ (s.log.configured = true → ¬ (s.log.base ≤ line ∧ line < s.log.base + 2 * s.log.capacity))
      (¬ Unrestricted s → exec (.setWindow index enable base count) s = .next (answered d 0x11 [] s))
      ∧ (Unrestricted s → ¬ (fields ∧ fits) →
          exec (.setWindow index enable base count) s = .next (answered d 0x12 [] s))
      ∧ (Unrestricted s → fields ∧ fits → ¬ alone →
          exec (.setWindow index enable base count) s = .next (answered d 0x13 [] s))
      ∧ (Unrestricted s → fields ∧ fits → alone → ∀ i : Fin 8, i.val = index.toNat →
          exec (.setWindow index enable base count) s
            = .next (answered d 0x00 [] { s with cls := { s.cls with
                windows := s.cls.windows.set i.val ⟨enable == 1, base.toNat, count.toNat⟩ i.isLt } })))

/-- SET_LOG: its checks in order (R185), and the whole of R28 when it is accepted: the five settings,
three quarters of the capacity for a watermark of 0, the positions at 0, the log configured. That a
frame outside a transaction is answered as a whole one is the model's choice (log 6). -/
def Obligations.SetLog : Prop :=
  ∀ (s : State) (d : Decoder) (base : BitVec 40) (capacity : BitVec 32) (policy : Byte)
    (stallLimit : BitVec 16) (watermark : BitVec 32), Listening s d →
    let c := Instr.setLog base capacity policy stallLimit watermark
    let free := Unrestricted s ∧ s.log.allocated = s.log.head
    let fields := (policy = 0 ∨ policy = 1) ∧ base.toNat % 2 = 0 ∧ base.toNat < 2 ^ 34
      ∧ (∃ k, 4 ≤ k ∧ k ≤ 26 ∧ capacity.toNat = 2 ^ k) ∧ watermark.toNat ≤ capacity.toNat
      ∧ base.toNat + 2 * capacity.toNat ≤ s.cls.memSize
    let alone := ∀ line, base.toNat ≤ line → line < base.toNat + 2 * capacity.toNat →
      ∀ w ∈ s.cls.windows.toList, w.enable = true → ¬ (w.base ≤ line ∧ line < w.base + w.count)
    (¬ free → exec c s = .next (answered d 0x11 [] s))
    ∧ (free → ¬ fields → exec c s = .next (answered d 0x12 [] s))
    ∧ (free → fields → ¬ alone → exec c s = .next (answered d 0x13 [] s))
    ∧ (free → fields → alone →
        exec c s = .next (answered d 0x00 [] { s with log := { s.log with
          configured := true, base := base.toNat, capacity := capacity.toNat
          policy := if policy = 1 then .break else .stall
          stallLimit := stallLimit.toNat
          watermark := if watermark = 0 then capacity.toNat * 3 / 4 else watermark.toNat
          tail := 0, head := 0, allocated := 0 } }))

/-- SET_DOWNSTREAM and SET_CASCADE: their checks in order and their settings (R186, R188, R156). The
first is stated while the request channel is occupied, so that no grant follows (R151). That a frame
outside a transaction is answered as a whole one is the model's choice (log 6). That SET_CASCADE makes
no trigger check is the model's inference (log 12). -/
def Obligations.SetDownstreamAndCascade : Prop :=
  ∀ (s : State) (d : Decoder), Listening s d →
    (∀ (limit host preserve restore : Byte) (timeout : BitVec 16),
      let c := Instr.setDownstream limit host preserve restore timeout
      let fields := 1 ≤ limit.toNat ∧ limit.toNat ≤ 32 ∧ 1 ≤ host.toNat ∧ host.toNat ≤ 15
        ∧ 1 ≤ preserve.toNat ∧ preserve.toNat ≤ 15 ∧ 1 ≤ restore.toNat ∧ restore.toNat ≤ 15
      (¬ Unrestricted s → exec c s = .next (answered d 0x11 [] s))
      ∧ (Unrestricted s → ¬ fields → exec c s = .next (answered d 0x12 [] s))
      ∧ (Unrestricted s → fields → s.down.channel.isSome = true →
          exec c s = .next (answered d 0x00 [] { s with down := { s.down with
            limit := limit.toNat, wHost := host.toNat, wPreserve := preserve.toNat
            wRestore := restore.toNat, timeout := timeout.toNat } })))
    ∧ (∀ (role last : Byte) (agreementLimit holdLimit : BitVec 16),
      let c := Instr.setCascade role last agreementLimit holdLimit
      let fields := role.toNat ≤ 2 ∧ (last = 0 ∨ last = 1) ∧ agreementLimit ≠ 0 ∧ holdLimit ≠ 0
      (¬ Unrestricted s → exec c s = .next (answered d 0x11 [] s))
      ∧ (Unrestricted s → ¬ fields → exec c s = .next (answered d 0x12 [] s))
      ∧ (Unrestricted s → fields →
          exec c s = .next (answered d 0x00 [] { s with casc := { s.casc with
            role := if role = 0 then .solo else if role = 1 then .leader else .follower
            last := last == 1
            agreementLimit := agreementLimit.toNat, holdLimit := holdLimit.toNat
            abandoned := none, upList := [], downList := [] } })))

/-- SET_TRIGGERS: a switch byte above 1 is refused with RANGE; else all four settings are replaced, the
interval timer reloaded and the TIMER flag cleared (R23, R18), nothing else changing while no trigger
take is due; in HELD a set flag made servable latches TRIGGER_MISSED (R21). That a frame outside a
transaction is answered as a whole one, and that the TIMER flag it clears starts no take, are the model's
choices (log 6, log 22). -/
def Obligations.SetTriggers : Prop :=
  ∀ (s : State) (d : Decoder) (line : Byte) (interval : BitVec 16) (auto rolling : Byte), Listening s d →
    let c := Instr.setTriggers line interval auto rolling
    let fields := line.toNat ≤ 1 ∧ auto.toNat ≤ 1 ∧ rolling.toNat ≤ 1
    let t := { s with ckpt := { s.ckpt with
      lineEnable := line == 1, interval := interval.toNat, autoTake := auto == 1
      rolling := rolling == 1, intervalCount := interval.toNat, intervalMicros := 0
      timerFlag := false } }
    (¬ fields → exec c s = .next (answered d 0x12 [] s))
    ∧ (fields → ∃ u, exec c s = .next u ∧ Answers d 0x00 [] u
        ∧ u.ckpt.lineEnable = (line == 1) ∧ u.ckpt.interval = interval.toNat
        ∧ u.ckpt.autoTake = (auto == 1) ∧ u.ckpt.rolling = (rolling == 1)
        ∧ u.ckpt.intervalCount = interval.toNat ∧ u.ckpt.timerFlag = false)
    ∧ (fields → ChannelsBusy s → isHeld s = false →
        (s.ckpt.ctrl ≠ .idle ∨ (s.ckpt.cascadeFlag = false ∧ (s.ckpt.lineFlag = false ∨ line = 0))) →
        exec c s = .next (answered d 0x00 [] t))
    ∧ (fields → ChannelsBusy s → isHeld s = true → s.casc.role = .solo → s.ckpt.lineFlag = true →
        s.ckpt.lineEnable = false →
        exec c s = .next (answered d 0x00 []
          (if line = 1 then { t with mgmt := { t.mgmt with latches := t.mgmt.latches ||| 0x40 } } else t)))

/-! ## Resets -/

/-- Warm reset empties the tracker, the admission side, the filter, the ready lists, the tags and both
send lists, sets allocated to head, clears the flags and auto-take, moves the controller as R26 states
and keeps the rest (R26, R44, R67, R90, R112, R136, R153, R174, R216). The operation result record is
then INTERRUPTED for the operation in progress, and for a leader awaiting DONE, else unchanged (R26, R87,
R213, R214). That a command reset in progress runs on is the model's choice (log 26). -/
def Obligations.WarmReset : Prop :=
  (∀ s : State, ∃ t, exec .wrstNAssert s = .next t
      ∧ t.pins = { s.pins with wrstLow := true }
      ∧ t.up = { offered := s.up.offered, nextSeq := 0, liveTags := [], refusals := [], queue := []
                 fenceList := [], channel := none }
      ∧ t.cls = s.cls ∧ t.entries = [] ∧ t.filter = []
      ∧ t.log = { s.log with allocated := s.log.head, finished := [], waitList := [], stallClock := 0 }
      ∧ t.restore = { s.restore with walk := none }
      ∧ t.down = { s.down with hostReady := [], preserveReady := [], restoreReady := [], tags := []
                               channel := none, turn := .host, used := 0 }
      ∧ t.casc = { s.casc with
          agreement := none, upList := [], downList := []
          abandoned := if s.casc.role = .follower ∧ s.casc.agreement.isSome = true
            then s.casc.agreement.map Agreement.id else s.casc.abandoned }
      ∧ t.ckpt = { s.ckpt with
          fence := t.ckpt.fence, ctrl := t.ckpt.ctrl, lineFlag := false, timerFlag := false
          cascadeFlag := false, autoTake := false, intervalCount := s.ckpt.interval
          intervalMicros := 0 }
      ∧ (s.ckpt.ctrl = .idle → t.ckpt.ctrl = .idle ∧ t.ckpt.fence = false)
      ∧ (∀ g src, s.ckpt.ctrl = .settling g src ∨ s.ckpt.ctrl = .agreeing g src →
          t.ckpt.ctrl = .idle ∧ t.ckpt.fence = false)
      ∧ (∀ k, s.ckpt.ctrl = .restoring k → t.ckpt.ctrl = .held .interrupted ∧ t.ckpt.fence = true)
      ∧ (∀ r, s.ckpt.ctrl = .held r → t.ckpt.ctrl = .held r ∧ t.ckpt.fence = true)
      ∧ t.mgmt = { s.mgmt with decoder := .waiting, warmPending := false, response := none
                               result := t.mgmt.result }
      ∧ t.pending = s.pending)
  ∧ (∀ s t : State, exec .wrstNAssert s = .next t →
      (∀ src, s.ckpt.ctrl = .settling .take src ∨ s.ckpt.ctrl = .agreeing .take src →
        t.mgmt.result = some ⟨.take, src, .interrupted, none, 0, 0, s.casc.agreement.map Agreement.id⟩)
      ∧ (∀ k src, s.ckpt.ctrl = .settling (.rollback k) src ∨ s.ckpt.ctrl = .agreeing (.rollback k) src →
        t.mgmt.result
          = some ⟨.rollback, src, .interrupted, some k, 0, 0, s.casc.agreement.map Agreement.id⟩)
      ∧ (∀ k w, s.ckpt.ctrl = .restoring k → s.restore.walk = some w →
        t.mgmt.result = some ⟨.rollback, if s.casc.role = .follower then .cascade else .command,
          .interrupted, some k, w.applied, s.restore.unrestored.length + s.restore.overflow,
          s.casc.agreement.map Agreement.id⟩)
      ∧ (s.ckpt.ctrl = .idle ∨ (∃ r, s.ckpt.ctrl = .held r) →
        (s.casc.role ≠ .leader ∨ s.casc.agreement = none → t.mgmt.result = s.mgmt.result)
        ∧ (∀ a, s.casc.role = .leader → s.casc.agreement = some a →
          (a.goal = .take →
            t.mgmt.result = some ⟨.take, a.source, .interrupted, a.pushed, 0, 0, some a.id⟩)
          ∧ (∀ k, a.goal = .rollback k →
            t.mgmt.result
              = some ⟨.rollback, a.source, .interrupted, some k, a.applied, a.unrestored, some a.id⟩))))

/-- PORST_N asserted gives every block its power-on values, the lines' own levels and the request the
master offers apart (R25, R44, R67, R90, R112, R136, R153, R174, R202, R216); its release starts from
the level of CKPT_REQ then, and a low MCS_N is waited out (R25, R177). While a reset is asserted no event
is taken and no frame executed (R177, R203). That the release carries the level of CKPT_REQ, and that a
command reset in progress ends, are the model's choices (log 13, log 26). -/
def Obligations.PowerOnReset : Prop :=
  (∀ (s : State) (q : Bool),
      exec .porstNAssert s = .next { State.reset with
        up := { State.reset.up with offered := s.up.offered }
        ckpt := { State.reset.ckpt with ckptLevel := s.ckpt.ckptLevel }
        mgmt := { State.reset.mgmt with mcsLow := s.mgmt.mcsLow }
        pins := ⟨true, s.pins.wrstLow, none⟩
        pending := s.pending }
      ∧ (s.pins = ⟨true, false, none⟩ → s.up = Upstream.reset → s.entries = [] →
        exec (.porstNRelease q) s = .next { s with
          pins := ⟨false, false, none⟩
          ckpt := { s.ckpt with ckptLevel := q }
          mgmt := { s.mgmt with decoder := if s.mgmt.mcsLow then .ignoring else .waiting } })
      ∧ (s.pins.porstLow = true → s.pins.wrstLow = true →
        exec (.porstNRelease q) s = .next { s with
          pins := { s.pins with porstLow := false }, ckpt := { s.ckpt with ckptLevel := q } }))
  ∧ (∀ (s : State) (c : Instr), inReset s = true →
      (∀ r, c ≠ .requestTaken r) → c ≠ .transactionStart → c ≠ .transactionEnd →
      (∀ q, c ≠ .commandResetEnd q) → c ≠ .porstNAssert → (∀ q, c ≠ .porstNRelease q) →
      c ≠ .wrstNAssert → (∀ q, c ≠ .wrstNRelease q) → exec c s = .next s)

/-- The end of a warm reset, by WRST_N or of the one WARM_RESET caused: the level of CKPT_REQ then is
the starting level, a low MCS_N is waited out, and a request still offered is taken as a new one (R26,
R115, R177, R201). That the release carries the level of CKPT_REQ, that COMMAND_RESET_END stands for the
end of the 10 µs whatever microseconds have passed, and that a command reset runs on beside WRST_N, are
the model's choices (log 13, log 3, log 26). -/
def Obligations.WarmResetEnd : Prop :=
  ∀ (s : State) (q : Bool) (pins : Pins) (c : Instr),
    (c = .wrstNRelease q ∧ s.pins.wrstLow = true ∧ pins = { s.pins with wrstLow := false })
      ∨ (c = .commandResetEnd q ∧ s.pins.commandReset.isSome = true
          ∧ pins = { s.pins with commandReset := none }) →
    (inReset { s with pins := pins } = true →
      exec c s = .next { s with pins := pins, ckpt := { s.ckpt with ckptLevel := q } })
    ∧ (inReset { s with pins := pins } = false → s.up = { Upstream.reset with offered := s.up.offered } →
        s.entries = [] →
      (s.up.offered = none →
        exec c s = .next { s with
          pins := pins, ckpt := { s.ckpt with ckptLevel := q }
          mgmt := { s.mgmt with decoder := if s.mgmt.mcsLow then .ignoring else .waiting } })
      ∧ (∀ r, s.up.offered = some r → r.line < s.cls.memSize → opKind r.op = .read →
        exec c s = .next { s with
          pins := pins, ckpt := { s.ckpt with ckptLevel := q }
          mgmt := { s.mgmt with decoder := if s.mgmt.mcsLow then .ignoring else .waiting }
          up := { s.up with
            offered := none, nextSeq := 1, liveTags := [r.tag]
            queue := [⟨r.tag, r.op, r.line, classOf r.line s, 0⟩] } }))


/-! ## Checkpoint operations -/

/-- The checks of TAKE and of ROLLBACK, in order, with the status each gives (R189, R191). That a frame
outside a transaction is answered as a whole one is the model's choice (log 6). -/
def Obligations.LongCommandRefusals : Prop :=
  ∀ (s : State) (d : Decoder) (k : CkptNumber), Listening s d →
    let take (st : Byte) := exec .take s = .next (answered d st [] s)
    let rollback (st : Byte) := exec (.rollback k) s = .next (answered d st [] s)
    (s.casc.role = .follower → take 0x11 ∧ rollback 0x11)
    ∧ (s.casc.role ≠ .follower → s.casc.agreement.isSome = true → take 0x10 ∧ rollback 0x10)
    ∧ (s.casc.role ≠ .follower → s.casc.agreement = none →
      ((∃ r, s.ckpt.ctrl = .held r) → take 0x11)
      ∧ ((∀ r, s.ckpt.ctrl ≠ .held r) → s.ckpt.ctrl ≠ .idle → take 0x10 ∧ rollback 0x10)
      ∧ (s.ckpt.ctrl = .idle → s.log.configured = false → take 0x17)
      ∧ (s.ckpt.ctrl = .idle → s.log.configured = true → 8 ≤ s.ckpt.stack.length → take 0x14)
      ∧ (s.ckpt.ctrl = .idle ∨ (∃ r, s.ckpt.ctrl = .held r) →
        (k = 0 → rollback 0x12)
        ∧ (k ≠ 0 → (∀ r ∈ s.ckpt.stack, r.number ≠ k) → rollback 0x15)
        ∧ (∀ r, k ≠ 0 → findCkpt k s = some r → r.state = .broken → rollback 0x16)))

/-- TAKE accepted while the tracker is not settled: the fence is raised, SETTLING(TAKE) is entered with
source COMMAND, each set flag is cleared and counted as merged (R9); a leader also starts an agreement,
steps its id and sends PREPARE (R161). That a frame outside a transaction is answered as a whole one is
the model's choice (log 6). -/
def Obligations.TakeStarts : Prop :=
  ∀ (s : State) (d : Decoder), Listening s d → s.casc.agreement = none → s.ckpt.ctrl = .idle →
    s.log.configured = true → s.ckpt.stack.length < 8 → settled s = false →
    let t := { s with
      ckpt := { s.ckpt with fence := true, ctrl := .settling .take .command, lineFlag := false
                            timerFlag := false, cascadeFlag := false }
      mgmt := { s.mgmt with counters := { s.mgmt.counters with
        triggersMerged := satAdd s.mgmt.counters.triggersMerged
          (s.ckpt.lineFlag.toNat + s.ckpt.timerFlag.toNat + s.ckpt.cascadeFlag.toNat) } } }
    (s.casc.role = .solo → exec .take s = .next (answered d 0x01 [] t))
    ∧ (s.casc.role = .leader → s.casc.downList.length < 4 →
      exec .take s = .next (answered d 0x01 [] { t with casc := { s.casc with
        opId := s.casc.opId + 1
        agreement := some
          { id := s.casc.opId + 1, goal := .take, source := .command, settled := false
            below := .awaited, readySent := .none, go := false, own := none, belowDone := none
            pushed := none, applied := 0, unrestored := 0
            timer := some ⟨0, s.casc.agreementLimit⟩ }
        downList := s.casc.downList ++ [.prepare (s.casc.opId + 1) .take 0] } }))

/-- The settle of a take: a solo take pushes its record, steps the generation, lowers the fence, writes
the result and latches TAKE_DONE, in the step of TAKE itself when the tracker is already settled (R11,
R4, R5, R47); a leader or follower enters AGREEING with its local phase SETTLED (R12, R13, R167). That a
frame outside a transaction is answered as a whole one is the model's choice (log 6). -/
def Obligations.TakeCompletes : Prop :=
  ∀ (s : State) (d : Decoder) (src : Source), settled s = true →
    let pushed (src : Source) (s : State) : State := { s with
      ckpt := { s.ckpt with
        stack := s.ckpt.stack ++ [⟨assignedNumber s, s.log.head, .live, 0, src⟩]
        nextNumber := if assignedNumber s = 65535 then 1 else assignedNumber s + 1
        generation := s.ckpt.generation + 1, fence := false, ctrl := .idle, lineFlag := false
        timerFlag := false, cascadeFlag := false }
      filter := if s.ckpt.generation = 65535 then [] else s.filter
      mgmt := { s.mgmt with
        result := some ⟨.take, src, .done, some (assignedNumber s), 0, 0, none⟩
        latches := s.mgmt.latches ||| 0x001 } }
    (Listening s d → s.casc.role = .solo → s.casc.agreement = none → s.ckpt.ctrl = .idle →
      s.log.configured = true → s.ckpt.stack.length < 8 →
      exec .take s = .next (answered d 0x01 [] (pushed .command { s with mgmt := { s.mgmt with
        counters := { s.mgmt.counters with
          triggersMerged := satAdd s.mgmt.counters.triggersMerged
            (s.ckpt.lineFlag.toNat + s.ckpt.timerFlag.toNat + s.ckpt.cascadeFlag.toNat) } } })))
    ∧ (inReset s = false → s.ckpt.ctrl = .settling .take src → ChannelsBusy s →
      (s.casc.role = .solo → s.casc.agreement = none → NoFlags s →
        exec .takeSettled s = .next (pushed src s))
      ∧ (∀ a, s.casc.role ≠ .solo → s.casc.agreement = some a → a.below = .awaited → a.go = false →
        exec .takeSettled s = .next { s with
          ckpt := { s.ckpt with ctrl := .agreeing .take src }
          casc := { s.casc with agreement := some { a with settled := true } } }))

/-- RELEASE: its checks in order (R190); accepted, the n oldest records leave and tail moves to the new
oldest mark or to head (R14, R34). The wait list is served in list order (R38): a release that empties the
stack sends every waiting entry to ISSUING, and while a LIVE checkpoint is current each receives a
reservation and goes to CAPTURING for as long as the log has room (R31, R55), LOG_HIGH latched where the
watermark is reached on the way (R42). The rest stay on the list in their order and the stall clock runs on
from where it was; an empty list stops it. That a frame outside a transaction is answered as a whole one is
the model's choice (log 6). -/
def Obligations.ReleaseCommand : Prop :=
  ∀ (s : State) (d : Decoder) (n : Byte), Listening s d →
    let allowed := s.ckpt.ctrl = .idle
      ∨ ∃ src, s.ckpt.ctrl = .settling .take src ∨ s.ckpt.ctrl = .agreeing .take src
    let tail := match (s.ckpt.stack.drop n.toNat).head? with
      | some r => r.mark
      | none => s.log.head
    let t := { s with
      ckpt := { s.ckpt with stack := s.ckpt.stack.drop n.toNat }
      log := { s.log with tail := tail, waitList := [], stallClock := 0 } }
    (¬ allowed → exec (.release n) s = .next (answered d 0x11 [] s))
    ∧ (allowed → n = 0 ∨ s.ckpt.stack.length < n.toNat →
        exec (.release n) s = .next (answered d 0x12 [] s))
    ∧ (allowed → n ≠ 0 → n.toNat ≤ s.ckpt.stack.length → ChannelsBusy s →
      (s.log.waitList = [] → exec (.release n) s = .next (answered d 0x00 [] t))
      ∧ (n.toNat = s.ckpt.stack.length →
        exec (.release n) s = .next (answered d 0x00 [] { t with
          entries := s.entries.map fun x =>
            if x.num ∈ s.log.waitList then { x with state := .issuing } else x
          down := { s.down with hostReady := s.down.hostReady ++ s.log.waitList.filterMap (fun m =>
            (entryAt m s).map fun e => ⟨.host m, e.op, e.line⟩) } }))
      ∧ (∀ c, (s.ckpt.stack.drop n.toNat).getLast? = some c → c.state = .live →
          s.log.waitList.Nodup → (∀ m ∈ s.log.waitList, ∃ e, entryAt m s = some e) →
          s.log.capacity ≤ 2 ^ 26 →
        let occupied := (s.log.allocated - tail).toNat
        let served := s.log.waitList.take (s.log.capacity - occupied)
        let left := s.log.waitList.drop (s.log.capacity - occupied)
        occupied ≤ s.log.capacity →
        exec (.release n) s = .next (answered d 0x00 [] { t with
          log := { t.log with
            allocated := s.log.allocated + BitVec.ofNat 32 served.length
            waitList := left, stallClock := if left = [] then 0 else s.log.stallClock }
          entries := s.entries.map fun x =>
            if x.num ∈ served then
              { x with
                state := .capturing
                ctx := some
                  { position := s.log.allocated + BitVec.ofNat 32 (served.idxOf x.num)
                    number := c.number, capture := .pending
                    captureQuarantined := false, header := .absent, data := .absent
                    failed := false, quarantined := 0, outcome := none } }
            else x
          down := { s.down with preserveReady := s.down.preserveReady ++ served.filterMap (fun m =>
            (entryAt m s).map fun e => ⟨.capture m, .read, e.line⟩) }
          mgmt := { s.mgmt with latches :=
            if occupied < s.log.watermark ∧ s.log.watermark ≤ occupied + served.length
            then s.mgmt.latches ||| 0x008 else s.mgmt.latches } })))

/-- ROLLBACK accepted in IDLE or HELD: the unrestored list is cleared, the fence raised, the stall clock
stopped; a leader starts an agreement (R70, R161). While the tracker holds it back SETTLING(ROLLBACK) is
entered; with the tracker settled, as it is in HELD, the settle is part of the acceptance: a solo unit
enters RESTORING with the header read of head - 1, or ends at once with DONE where no record lies in the
range, and a leader enters AGREEING with its local phase SETTLED (R71, R75, R161). That a frame outside a
transaction is answered as a whole one is the model's choice (log 6). -/
def Obligations.RollbackAccepted : Prop :=
  ∀ (s : State) (d : Decoder) (k : CkptNumber) (r : CkptRecord), Listening s d →
    s.casc.agreement = none → s.ckpt.ctrl = .idle ∨ (∃ h, s.ckpt.ctrl = .held h) →
    k ≠ 0 → findCkpt k s = some r → r.state = .live → s.log.waitList = [] → ChannelsBusy s →
    let t (ctrl : Ctrl) := { s with
      ckpt := { s.ckpt with fence := true, ctrl := ctrl }
      restore := { s.restore with unrestored := [], overflow := 0 }
      log := { s.log with stallClock := 0 } }
    let started (settled : Bool) : Cascade := { s.casc with
      opId := s.casc.opId + 1
      agreement := some
        { id := s.casc.opId + 1, goal := .rollback k, source := .command, settled := settled
          below := .awaited, readySent := .none, go := false, own := none, belowDone := none
          pushed := none, applied := 0, unrestored := 0
          timer := some ⟨0, s.casc.agreementLimit⟩ }
      downList := s.casc.downList ++ [.prepare (s.casc.opId + 1) .rollback k] }
    (rollbackSettled s = false →
      let u := t (.settling (.rollback k) .command)
      (s.casc.role = .solo → exec (.rollback k) s = .next (answered d 0x01 [] u))
      ∧ (s.casc.role = .leader → s.casc.downList.length < 4 →
        exec (.rollback k) s = .next (answered d 0x01 [] { u with casc := started false })))
    ∧ (rollbackSettled s = true →
      (s.casc.role = .solo →
        (s.log.head ≠ r.mark →
          exec (.rollback k) s = .next (answered d 0x01 [] { t (.restoring k) with
            restore := { s.restore with
              unrestored := [], overflow := 0
              walk := some
                { target := k, floor := r.mark, position := s.log.head - 1, stage := .header
                  header := none, oldData := none, applied := 0, stopped := false
                  quarantined := false } }
            down := { s.down with restoreReady := s.down.restoreReady ++
              [⟨.walkHeader, .read, s.log.base + 2 * ((s.log.head - 1).toNat % s.log.capacity)⟩] } }))
        ∧ (s.log.head = r.mark → NoFlags s →
          exec (.rollback k) s = .next (answered d 0x01 [] { s with
            ckpt := { s.ckpt with
              stack := s.ckpt.stack.takeWhile (fun x => x.number != k) ++ [{ r with records := 0 }]
              generation := s.ckpt.generation + 1, fence := false, ctrl := .idle }
            filter := if s.ckpt.generation = 65535 then [] else s.filter
            log := { s.log with stallClock := 0, head := r.mark, allocated := r.mark }
            restore := { s.restore with walk := none, unrestored := [], overflow := 0 }
            mgmt := { s.mgmt with
              result := some ⟨.rollback, .command, .done, some k, 0, 0, none⟩
              latches := s.mgmt.latches ||| 0x002 } })))
      ∧ (s.casc.role = .leader → s.casc.downList.length < 4 →
        exec (.rollback k) s
          = .next (answered d 0x01 [] { t (.agreeing (.rollback k) .command) with casc := started true })))

/-- At the acceptance of ROLLBACK every waiting entry goes to DONE with FENCED, and the wait list is
left empty with the stall clock stopped (R39, R66, R70). That a frame outside a transaction is answered
as a whole one is the model's choice (log 6). That SETTLING is entered before the wait list is refused
is the model's inference (log 9). -/
def Obligations.RollbackFencesWaiting : Prop :=
  ∀ (s : State) (d : Decoder) (k : CkptNumber) (r : CkptRecord), Listening s d →
    s.casc.role = .solo → s.casc.agreement = none → s.ckpt.ctrl = .idle → k ≠ 0 →
    findCkpt k s = some r → r.state = .live → (s.entries.map Entry.num).Nodup →
    ∃ t, exec (.rollback k) s = .next t ∧ Answers d 0x01 [] t
      ∧ t.log.waitList = [] ∧ t.log.stallClock = 0
      ∧ ∀ m ∈ s.log.waitList, ∀ e, entryAt m s = some e →
          ∃ e', entryAt m t = some e' ∧ e'.state = .done ∧ e'.status = some .fenced

/-- The settle of a solo rollback: a BROKEN target ends it REFUSED (R74); a LIVE one enters RESTORING,
and the walk requests the header of head - 1 (R75, R76), or ends at once, truncating to the target,
where no record lies in the range (R82, R83). So too where the settle is the end of another event's step
(Responses, HostEndsAndUnmatched). -/
def Obligations.RollbackSettles : Prop :=
  ∀ (s : State) (k : CkptNumber) (src : Source), inReset s = false →
    s.ckpt.ctrl = .settling (.rollback k) src → s.casc.role = .solo → s.casc.agreement = none →
    rollbackSettled s = true → NoFlags s → PortsStill s →
    (targetLive k s = false →
      exec .rollbackSettled s = .next { s with
        ckpt := { s.ckpt with fence := false, ctrl := .idle }
        mgmt := { s.mgmt with
          result := some ⟨.rollback, src, .refused, some k, 0, 0, none⟩
          latches := s.mgmt.latches ||| 0x002 } })
    ∧ (∀ r, findCkpt k s = some r → r.state = .live →
      (s.log.head ≠ r.mark →
        exec .rollbackSettled s = .next { s with
          ckpt := { s.ckpt with ctrl := .restoring k }
          restore := { s.restore with
            walk := some
              { target := k, floor := r.mark, position := s.log.head - 1, stage := .header
                header := none, oldData := none, applied := 0, stopped := false
                quarantined := false } }
          down := { s.down with restoreReady := s.down.restoreReady ++
            [⟨.walkHeader, .read, s.log.base + 2 * ((s.log.head - 1).toNat % s.log.capacity)⟩] } })
      ∧ (s.log.head = r.mark → s.restore.unrestored = [] → s.restore.overflow = 0 →
        exec .rollbackSettled s = .next { s with
          ckpt := { s.ckpt with
            stack := s.ckpt.stack.takeWhile (fun x => x.number != k) ++ [{ r with records := 0 }]
            generation := s.ckpt.generation + 1, fence := false, ctrl := .idle }
          filter := if s.ckpt.generation = 65535 then [] else s.filter
          log := { s.log with head := r.mark, allocated := r.mark }
          restore := { s.restore with walk := none }
          mgmt := { s.mgmt with
            result := some ⟨.rollback, .command, .done, some k, 0, 0, none⟩
            latches := s.mgmt.latches ||| 0x002 } }))

/-- The settle of a leader or follower: with READY still awaited from below the controller enters
AGREEING and the local phase is SETTLED (R12, R13, R161, R167); with READY(OK) taken, or not needed,
LEADER_GO or READY_OK_SEND follows in the same step (R163, R167). A rollback whose target is BROKEN ends
REFUSED instead, the fence lowered: a leader sends ABANDON, a follower that has sent no READY sends
READY(REFUSE, BROKEN) and remembers the id (R74, R161, R167). -/
def Obligations.SettlesInChain : Prop :=
  ∀ (s : State) (a : Agreement) (g : Goal) (src : Source), inReset s = false → s.ckpt.ctrl = .settling g src →
    s.casc.role ≠ .solo → s.casc.agreement = some a → a.go = false → PortsStill s →
    let agreed := { s with
      ckpt := { s.ckpt with ctrl := .agreeing g src }
      casc := { s.casc with agreement := some { a with settled := true } } }
    let settles (c : Instr) :=
      (a.below = .awaited → exec c s = .next agreed)
      ∧ (s.casc.role = .leader → a.below = .ok → exec c s = exec .leaderGo agreed)
      ∧ (s.casc.role = .follower → a.below = .ok ∨ a.below = .notNeeded → a.readySent = .none →
        exec c s = exec .readyOkSend agreed)
    (g = .take → settled s = true → settles .takeSettled)
    ∧ ∀ k, g = .rollback k → rollbackSettled s = true →
      let broken (casc : Cascade) := { s with
        casc := casc
        ckpt := { s.ckpt with fence := false, ctrl := .idle }
        mgmt := { s.mgmt with
          result := some ⟨.rollback, src, .refused, some k, 0, 0, some a.id⟩
          latches := s.mgmt.latches ||| 0x002 } }
      (∀ r, findCkpt k s = some r → r.state = .live → settles .rollbackSettled)
      ∧ (∀ r, findCkpt k s = some r → r.state = .broken →
        (s.casc.role = .leader → s.casc.downList.length < 4 → NoFlags s →
          exec .rollbackSettled s = .next (broken { s.casc with
            agreement := none, downList := s.casc.downList ++ [.abandon a.id] }))
        ∧ (s.casc.role = .follower → s.casc.upList.length < 4 →
          exec .rollbackSettled s = .next (broken { s.casc with
            agreement := none, abandoned := some a.id
            upList := if a.readySent = .none then s.casc.upList ++ [.ready a.id (.refuse .broken)]
              else s.casc.upList })))

/-- RELEASE_FENCE is refused with STATE outside HELD; in HELD it lowers the fence and the controller
returns to IDLE, a leader's agreement going on; nothing else changes while no flag is set (R192, R85,
R165). That a frame outside a transaction is answered as a whole one is the model's choice (log 6). -/
def Obligations.ReleaseFence : Prop :=
  ∀ (s : State) (d : Decoder), Listening s d →
    ((∀ r, s.ckpt.ctrl ≠ .held r) → exec .releaseFence s = .next (answered d 0x11 [] s))
    ∧ (∀ r, s.ckpt.ctrl = .held r → ChannelsBusy s → NoFlags s →
      (s.casc.agreement = none
        ∨ ∃ a, s.casc.role = .leader ∧ s.casc.agreement = some a ∧ a.go = true ∧ a.belowDone = none) →
      exec .releaseFence s
        = .next (answered d 0x00 [] { s with ckpt := { s.ckpt with fence := false, ctrl := .idle } }))

/-! ## Triggers, breaks -/

/-- A trigger take: the source is the first servable set flag in the order LINE, TIMER, CASCADE (R20);
without a log, or with a full stack outside rolling mode, it is MISSED (R21); else it starts, every flag
cleared and those beyond the source counted as merged (R9), after the release of the oldest record of a
full stack in rolling mode (R22); with the tracker settled already the settle is part of the same step, as
TAKE_SETTLED takes it (R7). With no servable flag nothing starts. That each piece runs in its event's step
is the model's inference (log 1). -/
def Obligations.TriggerTake : Prop :=
  ∀ (s : State) (src : Source), inReset s = false → AtRest s → ChannelsBusy s → s.casc.role ≠ .follower →
    let line := s.ckpt.lineFlag = true ∧ s.ckpt.lineEnable = true
    let timer := s.ckpt.timerFlag = true ∧ s.ckpt.autoTake = true
    let cascade := s.ckpt.cascadeFlag = true ∧ s.casc.role = .leader
    let cleared := { s.ckpt with lineFlag := false, timerFlag := false, cascadeFlag := false }
    let merged := { s.mgmt with counters := { s.mgmt.counters with
      triggersMerged := satAdd s.mgmt.counters.triggersMerged
        (s.ckpt.lineFlag.toNat + s.ckpt.timerFlag.toNat + s.ckpt.cascadeFlag.toNat - 1) } }
    (¬ line → ¬ timer → ¬ cascade → exec .triggerTakeStart s = .next s)
    ∧ ((line ∧ src = .line) ∨ (¬ line ∧ timer ∧ src = .timer)
        ∨ (¬ line ∧ ¬ timer ∧ cascade ∧ src = .cascade) →
      (s.log.configured = false ∨ (8 ≤ s.ckpt.stack.length ∧ s.ckpt.rolling = false) →
        exec .triggerTakeStart s = .next { s with
          ckpt := cleared
          mgmt := { s.mgmt with
            result := some ⟨.take, src, .missed, none, 0, 0, none⟩
            latches := s.mgmt.latches ||| 0x040 } })
      ∧ (∀ (stack : List CkptRecord) (log : Log) (casc : Cascade), s.log.configured = true →
          (s.ckpt.stack.length < 8 ∧ stack = s.ckpt.stack ∧ log = s.log)
            ∨ (8 ≤ s.ckpt.stack.length ∧ s.ckpt.rolling = true ∧ s.log.waitList = []
              ∧ stack = s.ckpt.stack.drop 1
              ∧ log = { s.log with
                tail := match (s.ckpt.stack.drop 1).head? with
                  | some r => r.mark
                  | none => s.log.head
                stallClock := 0 }) →
          (s.casc.role = .solo ∧ casc = s.casc)
            ∨ (s.casc.role = .leader ∧ s.casc.downList.length < 4 ∧ casc = { s.casc with
              opId := s.casc.opId + 1
              agreement := some
                { id := s.casc.opId + 1, goal := .take, source := src, settled := false
                  below := .awaited, readySent := .none, go := false, own := none, belowDone := none
                  pushed := none, applied := 0, unrestored := 0
                  timer := some ⟨0, s.casc.agreementLimit⟩ }
              downList := s.casc.downList ++ [.prepare (s.casc.opId + 1) .take 0] }) →
        let started := { s with
          ckpt := { cleared with stack := stack, fence := true, ctrl := .settling .take src }
          log := log, mgmt := merged, casc := casc }
        (settled s = false → exec .triggerTakeStart s = .next started)
        ∧ (settled s = true → exec .triggerTakeStart s = exec .takeSettled started)))

/-- CKPT_REQ rising and the interval expiring. While an operation is in progress in a role that latches
flags, LINE is latched if line triggering is enabled (R17), TIMER in any case with the count reloaded
(R18); a flag already set counts as merged (R211); in HELD a servable latch latches TRIGGER_MISSED (R21);
in every controller state the trigger check follows, as TRIGGER_TAKE_START makes it (R20).
A follower latches nothing, in every controller state: with line triggering enabled, or at the interval
with auto-take enabled, its ASK joins the UP send list or merges into the ASK already there, which counts
as merged (R17, R18, R158, R172, R173); on a list full of other messages the ASK is lost and
CASCADE_FAULT latched (R206, log 10). An interval of 0 does not expire. That an expiry stands for the
moment its limit is reached is the model's choice (log 3). -/
def Obligations.TriggerLatches : Prop :=
  ∀ s : State, inReset s = false →
    (s.ckpt.interval = 0 → exec .intervalExpiry s = .next s)
    ∧ (s.casc.role ≠ .follower →
      let busy := s.ckpt.ctrl ≠ .idle ∧ ChannelsBusy s
      let m (already missed : Bool) : Mgmt := { s.mgmt with
        counters := { s.mgmt.counters with triggersMerged :=
          (if already then satAdd s.mgmt.counters.triggersMerged 1 else s.mgmt.counters.triggersMerged) }
        latches := if missed then s.mgmt.latches ||| 0x040 else s.mgmt.latches }
      let line := { s with
        ckpt := { s.ckpt with ckptLevel := true, lineFlag := true }
        mgmt := m s.ckpt.lineFlag (isHeld s) }
      let timer := { s with
        ckpt := { s.ckpt with intervalCount := s.ckpt.interval, intervalMicros := 0, timerFlag := true }
        mgmt := m s.ckpt.timerFlag (isHeld s && s.ckpt.autoTake) }
      (s.ckpt.lineEnable = false →
        exec .ckptReqRise s = .next { s with ckpt := { s.ckpt with ckptLevel := true } })
      ∧ (s.ckpt.lineEnable = true →
        exec .ckptReqRise s = exec .triggerTakeStart line
        ∧ (busy → exec .ckptReqRise s = .next line))
      ∧ (s.ckpt.interval ≠ 0 →
        exec .intervalExpiry s = exec .triggerTakeStart timer
        ∧ (busy → exec .intervalExpiry s = .next timer)))
    ∧ (s.casc.role = .follower →
      let waiting := Message.ask .line ∈ s.casc.upList ∨ Message.ask .timer ∈ s.casc.upList
      let asked (src : AskSource) (t u : State) : Prop :=
        (waiting → u = { t with mgmt := { s.mgmt with counters := { s.mgmt.counters with
          triggersMerged := satAdd s.mgmt.counters.triggersMerged 1 } } })
        ∧ (¬ waiting → s.casc.upList.length < 4 →
          u = { t with casc := { s.casc with upList := s.casc.upList ++ [.ask src] } })
        ∧ (¬ waiting → 4 ≤ s.casc.upList.length →
          u = { t with mgmt := { s.mgmt with latches := s.mgmt.latches ||| 0x200 } })
      let risen := { s with ckpt := { s.ckpt with ckptLevel := true } }
      let reloaded := { s with ckpt := { s.ckpt with
        intervalCount := s.ckpt.interval, intervalMicros := 0 } }
      (s.ckpt.lineEnable = false → exec .ckptReqRise s = .next risen)
      ∧ (s.ckpt.lineEnable = true → ∃ u, exec .ckptReqRise s = .next u ∧ asked .line risen u)
      ∧ (s.ckpt.interval ≠ 0 → s.ckpt.autoTake = false → exec .intervalExpiry s = .next reloaded)
      ∧ (s.ckpt.interval ≠ 0 → s.ckpt.autoTake = true →
        ∃ u, exec .intervalExpiry s = .next u ∧ asked .timer reloaded u))

/-- The stall limit reached with a LIVE record: every LIVE record becomes BROKEN and CHECKPOINTS_BROKEN
is latched (R16); every waiting entry goes to ISSUING in list order with its HOST request, the list
empties and the clock stops (R39); STALL_TIME counts the time to the limit (R40, log 3). A limit of 0
does not expire. That an event which cannot happen changes nothing is the model's choice (log 4). -/
def Obligations.StallLimitExpiry : Prop :=
  ∀ s : State, inReset s = false →
    (s.log.waitList = [] ∨ s.log.stallLimit = 0 → exec .stallLimitExpiry s = .next s)
    ∧ (s.log.waitList ≠ [] → s.log.stallLimit ≠ 0 → (∃ r ∈ s.ckpt.stack, r.state = .live) →
        s.down.channel.isSome = true →
      exec .stallLimitExpiry s = .next { s with
        ckpt := { s.ckpt with stack := s.ckpt.stack.map fun r => { r with state := .broken } }
        log := { s.log with waitList := [], stallClock := 0 }
        entries := s.entries.map fun e =>
          if e.num ∈ s.log.waitList then { e with state := .issuing } else e
        down := { s.down with hostReady := s.down.hostReady ++ s.log.waitList.filterMap (fun n =>
          (entryAt n s).map fun e => ⟨.host n, e.op, e.line⟩) }
        mgmt := { s.mgmt with
          counters := { s.mgmt.counters with
            stallTime := satAdd s.mgmt.counters.stallTime (s.log.stallLimit - s.log.stallClock) }
          latches := s.mgmt.latches ||| 0x004 } })

/-! ## Upstream port and admission -/

/-- REQUEST_TAKEN while both queues have room: the first row of R118 that applies; a refused request
joins the refusal queue (R121), LINE_PROTOCOL latched for PROTOCOL and no tag added (R119); another is
classed by the windows (R124) and joins the admission queue (R127). Without room it stays offered and
nothing else changes (R115). That an offer not taken is held in State is the model's choice (log 7). -/
def Obligations.RequestTaken : Prop :=
  ∀ (s : State) (r : HostRequest), inReset s = false → s.up.offered = none → s.up.channel.isSome = true →
    let guardArea := opKind r.op = .write ∧ s.log.configured = true ∧ s.log.base ≤ r.line
      ∧ r.line < s.log.base + 2 * s.log.capacity
    let inside := ∃ w ∈ s.cls.windows.toList, w.enable = true ∧ w.base ≤ r.line ∧ r.line < w.base + w.count
    let refused (st : UpStatus) (live : List (Fin 64)) : Upstream := { s.up with
      nextSeq := s.up.nextSeq + 1, liveTags := live
      refusals := s.up.refusals ++ [⟨r.tag, opKind r.op, st, s.up.nextSeq⟩] }
    (s.up.queue.length = 16 ∨ s.up.refusals.length = 4 →
      exec (.requestTaken r) s = .next { s with up := { s.up with offered := some r } })
    ∧ (s.up.queue.length < 16 → s.up.refusals.length < 4 →
      (r.tag ∈ s.up.liveTags →
        exec (.requestTaken r) s = .next { s with
          up := refused .protocol s.up.liveTags
          mgmt := { s.mgmt with latches := s.mgmt.latches ||| 0x080 } })
      ∧ (r.tag ∉ s.up.liveTags →
        (s.cls.memSize ≤ r.line →
          exec (.requestTaken r) s = .next { s with up := refused .range (s.up.liveTags ++ [r.tag]) })
        ∧ (r.line < s.cls.memSize → guardArea →
          exec (.requestTaken r) s = .next { s with up := refused .guard (s.up.liveTags ++ [r.tag]) })
        ∧ (r.line < s.cls.memSize → ¬ guardArea → ∀ c : ReqClass, (c = .guarded ↔ inside) →
          exec (.requestTaken r) s = .next { s with up := { s.up with
            nextSeq := s.up.nextSeq + 1, liveTags := s.up.liveTags ++ [r.tag]
            queue := s.up.queue ++ [⟨r.tag, r.op, r.line, c, s.up.nextSeq⟩] } })))

/-- ADMISSION of the request R128 or R133 offers, into the lowest-numbered FREE entry (R93): with every
older entry of its line DONE, a READ and a plain WRITE go to ISSUING with their HOST request (R98, R99)
and a WRITE of an empty mask to DONE with OK (R102); behind an active older entry it is BLOCKED (R94).
With no entry FREE, or nothing offered, nothing changes. That an event which cannot happen changes
nothing is the model's choice (log 4). -/
def Obligations.Admission : Prop :=
  ∀ s : State, inReset s = false →
    ((∀ n : Fin 32, ∃ e ∈ s.entries, e.num = n) ∨ (∀ r u, ¬ OffersToTracker s r u) →
      exec .admission s = .next s)
    ∧ ∀ (n : Fin 32) (r : Accepted) (u : Upstream), OffersToTracker s r u → LowestFreeEntry n s →
        s.up.offered = none → ChannelsBusy s →
      (∀ a, (s.entries.filter fun e => e.line == r.line).find? (fun e => e.state != .done) = some a →
          a.state ≠ .blocked →
        exec .admission s = .next { s with up := u, entries := s.entries ++ [newEntry n r] })
      ∧ ((∀ e ∈ s.entries, e.line = r.line → e.state = .done) →
        (r.op = .read ∨ (r.cls = .plain ∧ ∃ mask d, r.op = .write mask d ∧ mask ≠ 0) →
          exec .admission s = .next { s with
            up := u
            entries := s.entries ++ [{ newEntry n r with state := .issuing }]
            down := { s.down with hostReady := s.down.hostReady ++ [⟨.host n, r.op, r.line⟩] } })
        ∧ (∀ d, r.op = .write 0 d →
          exec .admission s = .next { s with
            up := u
            entries := s.entries ++ [{ newEntry n r with state := .done, status := some .ok }] }))

/-- The preservation step of a PROTECTED write whose older entries are DONE (R53): counted; not preserved
while no LIVE checkpoint is current; a filter hit goes straight to ISSUING (R54); a miss reserves the
position at allocated, makes the context and requests the capture read (R31, R55), LOG_HIGH latched at the
watermark (R42); on a full log STALL waits, the list kept in acceptance sequence, LOG_STALLED latched when
it was empty (R36, R37, R40), and BREAK breaks every LIVE checkpoint and forwards the write (R36, R39,
R16). The same for a BLOCKED write that the end of the older entry of its line makes eligible (R95, R98),
which may join the list ahead of younger ones (R37). In SETTLING(ROLLBACK) such a write that finds the log
full goes to DONE with FENCED under either policy, counted, no alert latched and no reservation made, and
the settle still waits for its response (R36, R66, R72, R73); with the log not full it obtains its record
as usual (R66, R73). -/
def Obligations.PreservationStep : Prop :=
  (∀ (s : State) (n : Fin 32) (r : Accepted) (u : Upstream) (mask : ByteMask) (d : LineData),
      inReset s = false → OffersToTracker s r u → LowestFreeEntry n s → s.up.offered = none →
      ChannelsBusy s →
      (∀ e ∈ s.entries, e.line = r.line → e.state = .done) →
      r.op = .write mask d → mask ≠ 0 → r.cls = .guarded →
      let counted := { s.mgmt.counters with protectedWrites := satInc s.mgmt.counters.protectedWrites }
      let hit := ∃ w ∈ s.filter, w.line = r.line ∧ w.stamp = s.ckpt.generation
      let full := (s.log.allocated - s.log.tail).toNat = s.log.capacity
      let settling := ∃ k src, s.ckpt.ctrl = .settling (.rollback k) src
      let issued := { s with
        up := u
        entries := s.entries ++ [{ newEntry n r with state := .issuing }]
        down := { s.down with hostReady := s.down.hostReady ++ [⟨.host n, r.op, r.line⟩] }
        mgmt := { s.mgmt with counters := counted } }
      ((∀ c, s.ckpt.stack.getLast? = some c → c.state = .broken) → exec .admission s = .next issued)
      ∧ (∀ c, s.ckpt.stack.getLast? = some c → c.state = .live →
        (hit → exec .admission s = .next { issued with mgmt := { s.mgmt with
          counters := { counted with filterHits := satInc s.mgmt.counters.filterHits } } })
        ∧ (¬ hit → ¬ full →
          exec .admission s = .next { s with
            up := u
            entries := s.entries ++ [{ newEntry n r with
              state := .capturing
              ctx := some
                { position := s.log.allocated, number := c.number, capture := .pending
                  captureQuarantined := false, header := .absent, data := .absent, failed := false
                  quarantined := 0, outcome := none } }]
            log := { s.log with allocated := s.log.allocated + 1 }
            down := { s.down with
              preserveReady := s.down.preserveReady ++ [⟨.capture n, .read, r.line⟩] }
            mgmt := { s.mgmt with
              counters := counted
              latches := if (s.log.allocated + 1 - s.log.tail).toNat = s.log.watermark
                then s.mgmt.latches ||| 0x008 else s.mgmt.latches } })
        ∧ (∀ older younger, ¬ hit → full → ¬ settling → s.log.policy = .stall →
            s.log.waitList = older ++ younger →
            (∀ m ∈ older, ∀ e, entryAt m s = some e → e.seq ≤ r.seq) →
            (∀ m ∈ younger, ∃ e, entryAt m s = some e ∧ r.seq < e.seq) →
          exec .admission s = .next { s with
            up := u
            entries := s.entries ++ [{ newEntry n r with state := .logWait }]
            log := { s.log with
              waitList := older ++ n :: younger
              stallClock := if s.log.waitList = [] then 0 else s.log.stallClock }
            mgmt := { s.mgmt with
              counters := counted
              latches := if s.log.waitList = [] then s.mgmt.latches ||| 0x010 else s.mgmt.latches } })
        ∧ (¬ hit → full → ¬ settling → s.log.policy = .break → s.log.waitList = [] →
          exec .admission s = .next { issued with
            ckpt := { s.ckpt with stack := s.ckpt.stack.map fun x => { x with state := .broken } }
            log := { s.log with stallClock := 0 }
            mgmt := { s.mgmt with counters := counted, latches := s.mgmt.latches ||| 0x004 } })))
  ∧ (∀ (s : State) (t n : Fin 32) (line : Nat) (op : LineOp) (m : Timer) (e b : Entry) (c : CkptRecord)
        (mask : ByteMask) (d data : LineData),
      inReset s = false → ChannelsBusy s →
      NoSendDue s →
      tagState t s.down = some (.outstanding ⟨.host n, op, line⟩ (some m)) → entryAt n s = some e →
      entryAt b.num s = some b → b.num ≠ n → b.line = e.line → b.state = .blocked →
      (∀ x ∈ s.entries, x.line = e.line → x.num ≠ n → x.num ≠ b.num → x.state = .done) →
      b.op = .write mask d → mask ≠ 0 → b.cls = .guarded →
      s.ckpt.stack.getLast? = some c → c.state = .live →
      (∀ w ∈ s.filter, w.line = b.line → w.stamp ≠ s.ckpt.generation) →
      let counted := { s.mgmt.counters with protectedWrites := satInc s.mgmt.counters.protectedWrites }
      let full := (s.log.allocated - s.log.tail).toNat = s.log.capacity
      let settling := ∃ k src, s.ckpt.ctrl = .settling (.rollback k) src
      let freed := s.down.tags.filter fun u => u.num != t
      let after (f : Entry → Entry) := s.entries.map fun x =>
        if x.num = n then
          { x with
            state := .done, status := some .ok, dtag := none
            readData := if x.op = .read then some data else x.readData }
        else if x.num = b.num then f x else x
      (full → settling →
        exec (.downstreamResponse t (opKind op) .ok data) s = .next { s with
          entries := after fun x => { x with state := .done, status := some .fenced }
          down := { s.down with tags := freed }
          mgmt := { s.mgmt with counters := counted } })
      ∧ (∀ older younger, full → ¬ settling → s.log.policy = .stall →
          s.log.waitList = older ++ younger →
          (∀ m ∈ older, ∀ e, entryAt m s = some e → e.seq ≤ b.seq) →
          (∀ m ∈ younger, ∃ e, entryAt m s = some e ∧ b.seq < e.seq) →
        exec (.downstreamResponse t (opKind op) .ok data) s = .next { s with
          entries := after fun x => { x with state := .logWait }
          down := { s.down with tags := freed }
          log := { s.log with
            waitList := older ++ b.num :: younger
            stallClock := if s.log.waitList = [] then 0 else s.log.stallClock }
          mgmt := { s.mgmt with
            counters := counted
            latches := if s.log.waitList = [] then s.mgmt.latches ||| 0x010 else s.mgmt.latches } })
      ∧ (¬ full →
        exec (.downstreamResponse t (opKind op) .ok data) s = .next { s with
          entries := after fun x =>
            { x with
              state := .capturing
              ctx := some
                { position := s.log.allocated, number := c.number, capture := .pending
                  captureQuarantined := false, header := .absent, data := .absent, failed := false
                  quarantined := 0, outcome := none } }
          log := { s.log with allocated := s.log.allocated + 1 }
          down := { s.down with
            tags := freed
            preserveReady := s.down.preserveReady ++ [⟨.capture b.num, .read, b.line⟩] }
          mgmt := { s.mgmt with
            counters := counted
            latches := if (s.log.allocated + 1 - s.log.tail).toNat = s.log.watermark
              then s.mgmt.latches ||| 0x008 else s.mgmt.latches } }))

/-- FENCE_DEFERRAL: with the fence raised and fewer than 8 requests on the fence list, a head that is
PROTECTED, names a line of an enabled window or a line of the list joins the list and is counted (R130,
R131, R129); in every other case nothing changes. That an event which cannot happen changes nothing is
the model's choice (log 4). -/
def Obligations.FenceDeferral : Prop :=
  ∀ s : State, inReset s = false →
    let held (h : Accepted) := h.cls = .guarded
      ∨ (∃ w ∈ s.cls.windows.toList, w.enable = true ∧ w.base ≤ h.line ∧ h.line < w.base + w.count)
      ∨ ∃ x ∈ s.up.fenceList, x.line = h.line
    (∀ h rest, s.ckpt.fence = true → s.up.queue = h :: rest → s.up.fenceList.length < 8 → held h →
        s.up.offered = none → s.up.channel.isSome = true →
      exec .fenceDeferral s = .next { s with
        up := { s.up with queue := rest, fenceList := s.up.fenceList ++ [h] }
        mgmt := { s.mgmt with counters := { s.mgmt.counters with
          fenceDeferrals := satInc s.mgmt.counters.fenceDeferrals } } })
    ∧ (s.ckpt.fence = false ∨ s.up.queue = [] ∨ s.up.fenceList.length = 8
        ∨ (∃ h rest, s.up.queue = h :: rest ∧ ¬ held h) →
      exec .fenceDeferral s = .next s)

/-- RESPONSE_OFFER: a free channel offers the ready item, DONE entry or refusal, of the oldest acceptance
sequence, and nothing when none is ready (R105). RESPONSE_TAKEN: the entry becomes FREE, or the refusal
leaves its queue; the tag leaves the live tags, unless the refusal is PROTOCOL (R106); the next offer
follows in the same step. In SETTLING a settle it completes, or one that is still due, is taken in the same
step, as ROLLBACK_SETTLED or TAKE_SETTLED takes it on the state it leaves (R7, R72). That an event which
cannot happen changes nothing is the model's choice (log 4). That the next offer and the settle are part of
the step that makes them due is the model's inference (log 1). -/
def Obligations.Responses : Prop :=
  ∀ s : State, inReset s = false →
    let readySeq (q : Nat) := (∃ e ∈ s.entries, e.state = .done ∧ e.seq = q) ∨ ∃ r ∈ s.up.refusals, r.seq = q
    (s.up.channel.isSome = true ∨ (∀ q, ¬ readySeq q) → exec .responseOffer s = .next s)
    ∧ (∀ q, s.up.channel = none → readySeq q → (∀ q', readySeq q' → q ≤ q') →
      exec .responseOffer s = .next { s with up := { s.up with channel := some q } })
    ∧ (s.up.channel = none → exec .responseTaken s = .next s)
    ∧ ∀ q, s.up.channel = some q → s.up.offered = none →
      let leaves (t : State) : Prop :=
        (s.down.channel.isSome = true → NoSettleDue t → NoSendDue s →
          exec .responseTaken s = .next { t with up := { t.up with channel := (readySeqs t).min? } })
        ∧ (∀ src, s.ckpt.ctrl = .settling .take src → exec .responseTaken s = exec .takeSettled t)
        ∧ (∀ k src, s.ckpt.ctrl = .settling (.rollback k) src →
          exec .responseTaken s = exec .rollbackSettled t)
      (∀ e, s.entries.find? (fun x => x.seq == q) = some e →
        leaves { s with
          entries := s.entries.filter fun x => x.seq != q
          up := { s.up with
            channel := none, liveTags := s.up.liveTags.filter fun x => x != e.tag } })
      ∧ (∀ r : RefusalItem, (∀ x ∈ s.entries, x.seq ≠ q) → s.up.refusals.find? (fun x => x.seq == q) = some r →
        leaves { s with up := { s.up with
          channel := none
          refusals := s.up.refusals.filter fun x => x.seq != q
          liveTags := if r.status = UpStatus.protocol then s.up.liveTags
            else s.up.liveTags.filter fun x => x != r.tag } })

/-! ## The downstream port -/

/-- GRANT: with the channel free, a request ready and a tag free below the limit, the class of R144
gives its front request the lowest-numbered FREE tag, the request is offered and its owner told (R141 to
R144); else nothing changes. DOWNSTREAM_REQUEST_TAKEN frees the channel, starts the tag's timer with the
timeout it reads (R143, R147), and the next grant follows. That an event which cannot happen changes
nothing is the model's choice (log 4). That the next grant is made in the step that frees the channel is
the model's inference (log 1). -/
def Obligations.Grant : Prop :=
  ∀ s : State, inReset s = false →
    (s.down.channel.isSome = true
        ∨ (s.down.hostReady = [] ∧ s.down.preserveReady = [] ∧ s.down.restoreReady = [])
        ∨ (∀ t : Fin 32, t.val < s.down.limit → ∃ u ∈ s.down.tags, u.num = t) →
      exec .grant s = .next s)
    ∧ (∀ (t : Fin 32) (c : DownClass) (used : Nat) (r : DownReq) (rest : List DownReq),
      let turn := s.down.turn
      let mayStay := readyList turn s.down ≠ [] ∧ s.down.used < weightOf turn s.down
      let d := { s.down with
        hostReady := if c = .host then rest else s.down.hostReady
        preserveReady := if c = .preserve then rest else s.down.preserveReady
        restoreReady := if c = .restore then rest else s.down.restoreReady
        tags := s.down.tags ++ [⟨t, .outstanding r none⟩]
        channel := some t, turn := c, used := used }
      let tell (f : Entry → Entry) (n : Fin 32) := s.entries.map fun e => if e.num = n then f e else e
      s.down.channel = none → LowestFreeTag t s.down → readyList c s.down = r :: rest →
      ((mayStay ∧ c = turn ∧ used = s.down.used + 1)
        ∨ (¬ mayStay ∧ used = 1 ∧ (c = nextClass turn
          ∨ (readyList (nextClass turn) s.down = [] ∧ c = nextClass (nextClass turn))
          ∨ (readyList (nextClass turn) s.down = [] ∧ readyList (nextClass (nextClass turn)) s.down = []
              ∧ c = turn)))) →
      (∀ n, r.owner = .host n ∨ r.owner = .capture n →
        exec .grant s = .next { s with down := d, entries := tell (fun e => { e with dtag := some t }) n })
      ∧ (∀ n, r.owner = .headerWrite n →
        exec .grant s = .next { s with down := d, entries := tell (fun e =>
          { e with ctx := e.ctx.map fun c => { c with header := .outstanding } }) n })
      ∧ (∀ n, r.owner = .dataWrite n →
        exec .grant s = .next { s with down := d, entries := tell (fun e =>
          { e with ctx := e.ctx.map fun c => { c with data := .outstanding } }) n })
      ∧ (r.owner = .walkHeader ∨ r.owner = .walkData ∨ r.owner = .walkWrite →
        exec .grant s = .next { s with down := d }))
    ∧ (s.down.channel = none → exec .downstreamRequestTaken s = .next s)
    ∧ (∀ t r o, s.down.channel = some t → tagState t s.down = some (.outstanding r o) →
      let taken := { s with down := { s.down with
        channel := none
        tags := s.down.tags.map fun u =>
          if u.num = t then { u with state := .outstanding r (some ⟨0, s.down.timeout⟩) } else u } }
      exec .downstreamRequestTaken s = exec .grant taken
      ∧ (s.down.hostReady = [] → s.down.preserveReady = [] → s.down.restoreReady = [] →
        exec .downstreamRequestTaken s = .next taken))

/-- A HOST request ends: by its response the entry is DONE with OK and the data of a READ, or with ERROR
and zeros, any other status also latching DOWNSTREAM_FAULT (R100, R104, R145); by timeout the tag is
quarantined, counted and latched, and the entry held in ISSUING with ERROR fixed (R101, R148); the late
response frees the tag and the entry is DONE (R149, R101). An end releases a BLOCKED successor, here a READ
(R95). A downstream response is discarded and DOWNSTREAM_FAULT latched where its tag is FREE, its request
is still offered and not taken, or its kind is not the request's or the quarantined request's (R146, R149).
In SETTLING a settle that the event completes is taken in the same step, as TAKE_SETTLED or
ROLLBACK_SETTLED takes it on the state the event leaves (R7, R10, R72): that it is part of this step is the
model's inference (log 1). That an expiry stands for the moment its limit is reached, and that a timeout of
a tag whose timer does not run is no event, are the model's choices (log 3). -/
def Obligations.HostEndsAndUnmatched : Prop :=
  (∀ (s : State) (t n : Fin 32) (op : LineOp) (line : Nat) (m : Timer) (e : Entry) (data : LineData),
      inReset s = false → ChannelsBusy s → entryAt n s = some e →
      let leaves (i : Instr) (u : State) : Prop :=
        (NoSettleDue u → NoSendDue s → exec i s = .next u)
        ∧ (∀ src, s.ckpt.ctrl = .settling .take src → exec i s = exec .takeSettled u)
        ∧ (∀ k src, s.ckpt.ctrl = .settling (.rollback k) src → exec i s = exec .rollbackSettled u)
      let still := ∀ x ∈ s.entries, x.line = e.line → x.state ≠ .blocked
      let freed := { s.down with tags := s.down.tags.filter fun u => u.num != t }
      let ended (st : UpStatus) (d : LineData) := s.entries.map fun x =>
        if x.num = n then
          { x with
            state := .done, status := some st, dtag := none
            readData := if x.op = .read then some d else x.readData }
        else x
      (tagState t s.down = some (.outstanding ⟨.host n, op, line⟩ (some m)) →
        (still →
          leaves (.downstreamResponse t (opKind op) .ok data)
            { s with down := freed, entries := ended .ok data }
          ∧ leaves (.downstreamResponse t (opKind op) .error data)
            { s with down := freed, entries := ended .error 0 }
          ∧ leaves (.downstreamResponse t (opKind op) .other data)
            { s with
              down := freed, entries := ended .error 0
              mgmt := { s.mgmt with latches := s.mgmt.latches ||| 0x100 } })
        ∧ (∀ b, entryAt b.num s = some b → b.num ≠ n → b.line = e.line → b.state = .blocked →
            b.op = .read →
            (∀ x ∈ s.entries, x.line = e.line → x.num ≠ n → x.num ≠ b.num → x.state = .done) →
          leaves (.downstreamResponse t (opKind op) .ok data) { s with
            down := { freed with hostReady := s.down.hostReady ++ [⟨.host b.num, .read, b.line⟩] }
            entries := (ended .ok data).map fun x =>
              if x.num = b.num then { x with state := .issuing } else x })
        ∧ (m.limit = 0 → exec (.downstreamTimeout t) s = .next s)
        ∧ (m.limit ≠ 0 →
          leaves (.downstreamTimeout t) { s with
            down := { s.down with tags := s.down.tags.map fun u =>
              if u.num = t then { u with state := .quarantined (opKind op) (.host n) } else u }
            entries := s.entries.map fun x =>
              if x.num = n then
                { x with
                  dtag := none, status := some .error, hold := true
                  readData := if x.op = .read then some 0 else x.readData }
              else x
            mgmt := { s.mgmt with
              counters := { s.mgmt.counters with
                downstreamTimeouts := satInc s.mgmt.counters.downstreamTimeouts }
              latches := s.mgmt.latches ||| 0x100 } }))
      ∧ (∀ k st, tagState t s.down = some (.quarantined k (.host n)) → still →
        leaves (.downstreamResponse t k st data) { s with
          down := freed
          entries := s.entries.map fun x =>
            if x.num = n then { x with state := .done, status := some .error, hold := false } else x }))
  ∧ (∀ (s : State) (t : Fin 32) (kind : RwKind) (st : DownStatus) (data : LineData),
      inReset s = false → ChannelsBusy s →
      (NoSettleDue s → NoSendDue s →
          tagState t s.down = none ∨ (∃ r, tagState t s.down = some (.outstanding r none))
          ∨ (∃ r m, tagState t s.down = some (.outstanding r (some m)) ∧ opKind r.op ≠ kind)
          ∨ (∃ k o, tagState t s.down = some (.quarantined k o) ∧ k ≠ kind) →
        exec (.downstreamResponse t kind st data) s
          = .next { s with mgmt := { s.mgmt with latches := s.mgmt.latches ||| 0x100 } })
      ∧ (tagState t s.down = none ∨ (∃ r, tagState t s.down = some (.outstanding r none))
          ∨ (∃ k o, tagState t s.down = some (.quarantined k o)) →
        exec (.downstreamTimeout t) s = .next s))

/-! ## Records -/

/-- The capture read ends: OK keeps the old data and requests header and data write, header first, to the
slot of the position (R57, R27); ERROR, or a timeout, makes the record poisoned, latches CAPTURE_POISONED
and requests the header write alone (R58); a timeout marks the tag until it is freed, and an entry in
COMMIT_WAIT then leaves it where head has passed its position, as COMMIT_WAIT_EXIT does (R58, R62). In
SETTLING what is due then is taken in the same step, as TAKE_SETTLED or ROLLBACK_SETTLED takes it (R7):
that it is part of this step is the model's inference (log 1). That an expiry stands for the moment its
limit is reached is the model's choice (log 3). -/
def Obligations.CaptureEnds : Prop :=
  ∀ (s : State) (t n : Fin 32) (line : Nat) (m : Timer) (e : Entry) (c : RecordCtx) (data : LineData),
    inReset s = false → ChannelsBusy s → entryAt n s = some e → e.ctx = some c →
    let leaves (i : Instr) (u : State) : Prop :=
      (NoSettleDue u → NoSendDue s → exec i s = .next u)
      ∧ (∀ src, s.ckpt.ctrl = .settling .take src → exec i s = exec .takeSettled u)
      ∧ (∀ k src, s.ckpt.ctrl = .settling (.rollback k) src → exec i s = exec .rollbackSettled u)
    let slot := s.log.base + 2 * (c.position.toNat % s.log.capacity)
    let freed := s.down.tags.filter fun u => u.num != t
    let change (f : RecordCtx → RecordCtx) := s.entries.map fun x =>
      if x.num = n then { x with state := .recording, dtag := none, ctx := x.ctx.map f } else x
    let poison (q : Bool) := change fun c =>
      { c with capture := .poisoned, captureQuarantined := q, header := .waiting }
    let header (old : Option LineData) : DownReq := ⟨.headerWrite n,
      .write (BitVec.allOnes 64) (assembleHeader c.number c.position e.line old), slot⟩
    (tagState t s.down = some (.outstanding ⟨.capture n, .read, line⟩ (some m)) →
      leaves (.downstreamResponse t .read .ok data) { s with
        entries := change fun c =>
          { c with capture := .captured data, header := .waiting, data := .waiting }
        down := { s.down with
          tags := freed
          preserveReady := s.down.preserveReady
            ++ [header (some data), ⟨.dataWrite n, .write (BitVec.allOnes 64) data, slot + 1⟩] } }
      ∧ leaves (.downstreamResponse t .read .error data) { s with
        entries := poison false
        down := { s.down with
          tags := freed, preserveReady := s.down.preserveReady ++ [header none] }
        mgmt := { s.mgmt with latches := s.mgmt.latches ||| 0x020 } }
      ∧ (m.limit ≠ 0 → leaves (.downstreamTimeout t) { s with
        entries := poison true
        down := { s.down with
          tags := s.down.tags.map fun u =>
            if u.num = t then { u with state := .quarantined .read (.capture n) } else u
          preserveReady := s.down.preserveReady ++ [header none] }
        mgmt := { s.mgmt with
          counters := { s.mgmt.counters with
            downstreamTimeouts := satInc s.mgmt.counters.downstreamTimeouts }
          latches := s.mgmt.latches ||| 0x120 } }))
    ∧ (∀ st, tagState t s.down = some (.quarantined .read (.capture n)) →
      let late := { s with
        entries := s.entries.map fun x =>
          if x.num = n then { x with ctx := x.ctx.map fun c => { c with captureQuarantined := false } }
          else x
        down := { s.down with tags := freed } }
      (e.state = .recording → leaves (.downstreamResponse t .read st data) late)
      ∧ (e.state = .commitWait → e.cls = .guarded → NoSendDue s →
        exec (.downstreamResponse t .read st data) s = exec (.commitWaitExit n) late))

/-- Record writes that leave their record unfinished: an acknowledgement of either write while the other
waits or is outstanding is noted (R60); the first failed write, while the other is outstanding, or timed
out, breaks every LIVE checkpoint and withdraws the other write if it still waits (R61, R140, R16), a
timeout also quarantining its tag, counted and latched (R148); a later end of a failed record changes that
write alone and requests no second break (R61); a freed notice takes one quarantined write away (R61, R149).
That an expiry stands for the moment its limit is reached is the model's choice (log 3). -/
def Obligations.RecordWrites : Prop :=
  ∀ (s : State) (t n : Fin 32) (w : RecWrite) (op : LineOp) (line : Nat) (m : Timer) (e : Entry)
      (c : RecordCtx) (data : LineData),
    inReset s = false → ChannelsBusy s → NoSendDue s →
    entryAt n s = some e → e.ctx = some c → e.cls = .guarded → e.state = .recording → c.outcome = none →
    opKind op = .write → s.log.waitList = [] →
    let own : Owner := match w with | .header => .headerWrite n | .data => .dataWrite n
    let other := match w with | .header => c.data | .data => c.header
    let requested := tagState t s.down = some (.outstanding ⟨own, op, line⟩ (some m))
    let freed := { s.down with tags := s.down.tags.filter fun u => u.num != t }
    let note (f : RecordCtx → RecordCtx) := s.entries.map fun x =>
      if x.num = n then { x with ctx := x.ctx.map f } else x
    let first (late : Nat) := note fun c =>
      { c with
        failed := true, quarantined := c.quarantined + late
        header := if w = .header then .failed else if c.header = .waiting then .withdrawn else c.header
        data := if w = .data then .failed else if c.data = .waiting then .withdrawn else c.data }
    let lost : Downstream := { s.down with tags := s.down.tags.map fun u =>
      if u.num = t then { u with state := .quarantined .write own } else u }
    let others := s.down.preserveReady.filter fun r =>
      r.owner != .headerWrite n && r.owner != .dataWrite n
    let late : Mgmt := { s.mgmt with
      counters := { s.mgmt.counters with
        downstreamTimeouts := satInc s.mgmt.counters.downstreamTimeouts }
      latches := s.mgmt.latches ||| 0x100 }
    (requested → c.failed = false →
      (other = .waiting ∨ other = .outstanding →
        exec (.downstreamResponse t .write .ok data) s
          = .next { s with down := freed, entries := note (setWriteState w .acknowledged) })
      ∧ ((∃ r ∈ s.ckpt.stack, r.state = .live) →
        let broken : State := { s with
          ckpt := { s.ckpt with stack := s.ckpt.stack.map fun r => { r with state := .broken } }
          log := { s.log with stallClock := 0 } }
        (other = .outstanding →
          exec (.downstreamResponse t .write .error data) s = .next { broken with
            down := { freed with preserveReady := others }, entries := first 0
            mgmt := { s.mgmt with latches := s.mgmt.latches ||| 0x004 } })
        ∧ (m.limit ≠ 0 →
          exec (.downstreamTimeout t) s = .next { broken with
            down := { lost with preserveReady := others }, entries := first 1
            mgmt := { late with latches := s.mgmt.latches ||| 0x104 } }))
      ∧ ((∀ r ∈ s.ckpt.stack, r.state = .broken) →
        (other = .outstanding →
          exec (.downstreamResponse t .write .error data) s
            = .next { s with down := { freed with preserveReady := others }, entries := first 0 })
        ∧ (m.limit ≠ 0 →
          exec (.downstreamTimeout t) s
            = .next { s with down := { lost with preserveReady := others }, entries := first 1, mgmt := late })))
    ∧ (requested → c.failed = true →
      (other = .waiting ∨ other = .outstanding ∨ c.quarantined ≠ 0 →
        exec (.downstreamResponse t .write .ok data) s
          = .next { s with down := freed, entries := note (setWriteState w .acknowledged) }
        ∧ exec (.downstreamResponse t .write .error data) s
          = .next { s with
              down := freed
              entries := note fun c => { setWriteState w .failed c with failed := true } })
      ∧ (m.limit ≠ 0 →
        exec (.downstreamTimeout t) s = .next { s with
          down := lost, mgmt := late
          entries := note fun c =>
            { setWriteState w .failed c with failed := true, quarantined := c.quarantined + 1 } }))
    ∧ (∀ st, tagState t s.down = some (.quarantined .write own) → c.failed = true →
        1 < c.quarantined ∨ c.header = .waiting ∨ c.header = .outstanding ∨ c.data = .waiting
          ∨ c.data = .outstanding →
      exec (.downstreamResponse t .write st data) s = .next { s with
        down := freed, entries := note fun c => { c with quarantined := c.quarantined - 1 } })

/-- The end of a record: WRITTEN when the header and the data write of a captured record are both
acknowledged, POISONED when the one header write of a poisoned record is (R60), FAILED when a write has
failed, no other is left and no record write is quarantined (R61, R140, R149). The entry goes to COMMIT_WAIT
and the notice is recorded (R32); at head, head passes the position and each following one
that has finished, in order, and stops at the first that has not, the outcomes beyond it kept; each passed is
counted in the current checkpoint's record, and in RECORDS_WRITTEN unless FAILED, tail following on an
empty stack (R33, R3); the entry's own exit is then taken in the same step where it is due, as
COMMIT_WAIT_EXIT takes it (R62, R63): that it comes in the finishing step is the model's inference
(log 17). -/
def Obligations.RecordFinishes : Prop :=
  ∀ (s u : State) (t n : Fin 32) (w : RecWrite) (op : LineOp) (line : Nat) (m : Timer) (e : Entry)
      (c : RecordCtx) (i : Instr) (f : RecordCtx → RecordCtx) (o : RecOutcome) (data : LineData),
    inReset s = false → ChannelsBusy s → NoSendDue s →
    entryAt n s = some e → e.ctx = some c → e.cls = .guarded → e.state = .recording → c.outcome = none →
    opKind op = .write → s.log.waitList = [] →
    let own : Owner := match w with | .header => .headerWrite n | .data => .dataWrite n
    let other := match w with | .header => c.data | .data => c.header
    let requested := tagState t s.down = some (.outstanding ⟨own, op, line⟩ (some m))
    let freed := { s.down with tags := s.down.tags.filter fun u => u.num != t }
    let others := s.down.preserveReady.filter fun r =>
      r.owner != .headerWrite n && r.owner != .dataWrite n
    let acknowledged := i = .downstreamResponse t .write .ok data ∧ requested ∧ u = { s with down := freed }
      ∧ f = setWriteState w .acknowledged
    let ended (st : WriteState) := st ≠ .waiting ∧ st ≠ .outstanding
    (acknowledged ∧ c.failed = false ∧ other = .acknowledged ∧ (∃ old, c.capture = .captured old)
        ∧ o = .written)
      ∨ (acknowledged ∧ c.failed = false ∧ w = .header ∧ other = .absent ∧ c.capture = .poisoned
        ∧ o = .poisoned)
      ∨ (acknowledged ∧ c.failed = true ∧ ended other ∧ c.quarantined = 0 ∧ o = .failed)
      ∨ (i = .downstreamResponse t .write .error data ∧ requested ∧ c.failed = true ∧ ended other
        ∧ c.quarantined = 0 ∧ u = { s with down := freed }
        ∧ f = (fun c => { setWriteState w .failed c with failed := true }) ∧ o = .failed)
      ∨ (i = .downstreamResponse t .write .error data ∧ requested ∧ c.failed = false ∧ other ≠ .outstanding
        ∧ c.quarantined = 0 ∧ o = .failed
        ∧ (((∃ r ∈ s.ckpt.stack, r.state = .live) ∧ u = { s with
            down := { freed with preserveReady := others }
            ckpt := { s.ckpt with stack := s.ckpt.stack.map fun r => { r with state := .broken } }
            log := { s.log with stallClock := 0 }
            mgmt := { s.mgmt with latches := s.mgmt.latches ||| 0x004 } })
          ∨ ((∀ r ∈ s.ckpt.stack, r.state = .broken) ∧ u = { s with down := { freed with preserveReady := others } }))
        ∧ f = (fun c =>
          { c with
            failed := true
            header := if w = .header then .failed
              else if c.header = .waiting then .withdrawn else c.header
            data := if w = .data then .failed else if c.data = .waiting then .withdrawn else c.data }))
      ∨ (∃ st, i = .downstreamResponse t .write st data ∧ tagState t s.down = some (.quarantined .write own)
        ∧ c.failed = true ∧ ended c.header ∧ ended c.data ∧ c.quarantined = 1 ∧ u = { s with down := freed }
        ∧ f = (fun c => { c with quarantined := c.quarantined - 1 }) ∧ o = .failed) →
    let noticed := { u with entries := s.entries.map fun x =>
      if x.num = n then
        { x with state := .commitWait, ctx := x.ctx.map fun c => { f c with outcome := some o } }
      else x }
    let pass (x : State) (o : RecOutcome) := { x with
      ckpt := { x.ckpt with stack := x.ckpt.stack.dropLast ++ (x.ckpt.stack.getLast?.map fun r =>
        { r with records := min (r.records + 1) (2 ^ 26) }).toList }
      log := { x.log with
        head := x.log.head + 1, finished := []
        tail := if x.ckpt.stack = [] then x.log.head + 1 else x.log.tail }
      mgmt := { x.mgmt with counters := { x.mgmt.counters with
        recordsWritten := if o = .failed then x.mgmt.counters.recordsWritten
          else satInc x.mgmt.counters.recordsWritten } } }
    (c.position ≠ s.log.head → (∀ x ∈ s.log.finished, x.1 ≠ s.log.head) →
        (c.position - s.log.head).toNat < (s.log.allocated - s.log.head).toNat →
      exec i s
        = .next { noticed with log := { u.log with finished := s.log.finished ++ [(c.position, o)] } })
    ∧ (∀ after : List RecOutcome, c.position = s.log.head →
        after.length < (s.log.allocated - s.log.head).toNat →
        (s.log.finished.map Prod.fst).Nodup → (∀ x ∈ s.log.finished, x.1 ≠ s.log.head) →
        (∀ j p, after[j]? = some p → (s.log.head + BitVec.ofNat 32 (j + 1), p) ∈ s.log.finished) →
        (∀ x ∈ s.log.finished, x.1 ≠ s.log.head + BitVec.ofNat 32 (after.length + 1)) →
      let advanced := after.foldl pass (pass noticed o)
      exec i s = exec (.commitWaitExit n) { advanced with log := { advanced.log with
        finished := s.log.finished.filter fun x => after.length < (x.1 - s.log.head).toNat } })

/-- COMMIT_WAIT_EXIT: once head has passed its position and its capture is not quarantined, an entry in
COMMIT_WAIT goes to ISSUING with its HOST request, its context discarded; else nothing happens (R62, R63).
While a LIVE checkpoint is current, a WRITTEN or POISONED record inserts the line (R63): the way of the
set already naming the line is rewritten, else the lowest invalid way, else the oldest written stale way,
else the oldest written way, a displacement, which is counted; the way written is then the newest of its
set (R49, R50). That an event which cannot happen changes nothing is the model's choice (log 4). The test
for a position head has passed is the model's inference (log 8). -/
def Obligations.CommitWaitExit : Prop :=
  ∀ (s : State) (n : Fin 32) (e : Entry) (c : RecordCtx),
    inReset s = false → ChannelsBusy s → entryAt n s = some e → e.ctx = some c →
    let gone (f : List FilterWay) := { s with
      entries := s.entries.map fun x => if x.num = n then { x with state := .issuing, ctx := none } else x
      down := { s.down with hostReady := s.down.hostReady ++ [⟨.host n, e.op, e.line⟩] }
      filter := f }
    let ways := s.filter.filter fun w => w.line % 1024 == e.line % 1024
    let put (i : Fin 4) := s.filter.filter (fun w => !(w.line % 1024 == e.line % 1024 && w.way == i))
      ++ [⟨i, e.line, s.ckpt.generation⟩]
    (e.state ≠ .commitWait ∨ c.captureQuarantined = true
        ∨ (c.position - s.log.head).toNat < (s.log.allocated - s.log.head).toNat →
      exec (.commitWaitExit n) s = .next s)
    ∧ (e.state = .commitWait → c.captureQuarantined = false →
        (s.log.allocated - s.log.head).toNat ≤ (c.position - s.log.head).toNat →
      (c.outcome = some .failed ∨ (∀ r, s.ckpt.stack.getLast? = some r → r.state = .broken) →
        exec (.commitWaitExit n) s = .next (gone s.filter))
      ∧ (∀ r, c.outcome = some .written ∨ c.outcome = some .poisoned →
          s.ckpt.stack.getLast? = some r → r.state = .live →
        (∀ w, ways.find? (fun w => w.line == e.line) = some w →
          exec (.commitWaitExit n) s = .next (gone (put w.way)))
        ∧ ((∀ w ∈ s.filter, w.line ≠ e.line) →
          (∀ i, (∀ w ∈ ways, w.way ≠ i) → (∀ j < i, ∃ w ∈ ways, w.way = j) →
            exec (.commitWaitExit n) s = .next (gone (put i)))
          ∧ ((∀ i : Fin 4, ∃ w ∈ ways, w.way = i) →
            (∀ w, ways.find? (fun w => w.stamp != s.ckpt.generation) = some w →
              exec (.commitWaitExit n) s = .next (gone (put w.way)))
            ∧ (∀ w, (∀ x ∈ ways, x.stamp = s.ckpt.generation) → ways.head? = some w →
              exec (.commitWaitExit n) s = .next { gone (put w.way) with
                mgmt := { s.mgmt with counters := { s.mgmt.counters with
                  filterDisplacements := satInc s.mgmt.counters.filterDisplacements } } })))))

/-! ## The walk -/

/-- The reads of a solo walk: a good header leads to the data read, a poisoned one puts its line on the
unrestored list and the walk moves on (R77, R69, R80); data whose check value agrees leads to the line
write (R78). A corrupt header (RecordRoundTrip says which), data that disagrees or a read in ERROR ends the
walk: every LIVE checkpoint BROKEN, HELD(CORRUPT), result CORRUPT (R77, R78, R84, R16). A read that times
out leaves the walk in DRAIN (R76, R79). That an expiry stands for the moment its limit is reached is the
model's choice (log 3). -/
def Obligations.WalkReads : Prop :=
  ∀ (s : State) (w : Walk) (t : Fin 32) (line : Nat) (m : Timer) (h data : LineData) (k : CkptNumber),
    inReset s = false → s.restore.walk = some w → s.ckpt.ctrl = .restoring k → s.casc.role = .solo →
    s.casc.agreement = none → ChannelsBusy s → NoFlags s → w.stopped = false →
    let freed := { s.down with tags := s.down.tags.filter fun u => u.num != t }
    let slot (p : Position) := s.log.base + 2 * (p.toNat % s.log.capacity)
    let drain (o : Owner) := Host.Outcome.next (φ := Fault) (ρ := Refusal) { s with
      restore := { s.restore with
        walk := some { w with stage := .drain, quarantined := true, stopped := true } }
      down := { s.down with tags := s.down.tags.map fun u =>
        if u.num = t then { u with state := .quarantined .read o } else u }
      mgmt := { s.mgmt with
        counters := { s.mgmt.counters with
          downstreamTimeouts := satInc s.mgmt.counters.downstreamTimeouts }
        latches := s.mgmt.latches ||| 0x100 } }
    let corrupt := { s with
      down := freed
      restore := { s.restore with walk := none }
      ckpt := { s.ckpt with
        ctrl := .held .corrupt
        stack := s.ckpt.stack.map fun r => { r with state := .broken } }
      log := { s.log with stallClock := 0 }
      mgmt := { s.mgmt with
        result := some ⟨.rollback, .command, .corrupt, some w.target, w.applied,
          s.restore.unrestored.length + s.restore.overflow, none⟩
        latches := s.mgmt.latches ||| 0x006 } }
    let breaks := (∃ r ∈ s.ckpt.stack, r.state = .live) ∧ s.log.waitList = []
    (tagState t s.down = some (.outstanding ⟨.walkHeader, .read, line⟩ (some m)) →
      (headerCorrupt h w.position s.cls = false → headerFlags h = 0 →
        exec (.downstreamResponse t .read .ok h) s = .next { s with
          restore := { s.restore with walk := some { w with header := some h, stage := .data } }
          down := { freed with restoreReady := s.down.restoreReady
            ++ [⟨.walkData, .read, slot w.position + 1⟩] } })
      ∧ (headerCorrupt h w.position s.cls = false → headerFlags h = 1 → w.position ≠ w.floor →
        exec (.downstreamResponse t .read .ok h) s = .next { s with
          restore := { (addUnrestored (headerAddr h) s).restore with
          walk := some
            { w with
              position := w.position - 1, stage := .header, header := none, oldData := none } }
          down := { freed with restoreReady := s.down.restoreReady
            ++ [⟨.walkHeader, .read, slot (w.position - 1)⟩] } })
      ∧ (headerCorrupt h w.position s.cls = true → breaks →
        exec (.downstreamResponse t .read .ok h) s = .next corrupt)
      ∧ (breaks → exec (.downstreamResponse t .read .error h) s = .next corrupt)
      ∧ (m.limit ≠ 0 → exec (.downstreamTimeout t) s = drain .walkHeader))
    ∧ (tagState t s.down = some (.outstanding ⟨.walkData, .read, line⟩ (some m)) → w.header = some h →
      (crc32 (headerTopOf h ++ data) = headerCheck h →
        exec (.downstreamResponse t .read .ok data) s = .next { s with
          restore := { s.restore with walk := some { w with oldData := some data, stage := .write } }
          down := { freed with restoreReady := s.down.restoreReady
            ++ [⟨.walkWrite, .write (BitVec.allOnes 64) data, headerAddr h⟩] } })
      ∧ (crc32 (headerTopOf h ++ data) ≠ headerCheck h → breaks →
        exec (.downstreamResponse t .read .ok data) s = .next corrupt)
      ∧ (breaks → exec (.downstreamResponse t .read .error data) s = .next corrupt)
      ∧ (m.limit ≠ 0 → exec (.downstreamTimeout t) s = drain .walkData))

/-- The line write of a solo walk: OK counts the record, ERROR puts its line on the unrestored list, and
the walk takes the next lower position (R78, R69, R80); at the floor it ends, truncating to the target
with the outcome DONE (R80, R82, R83, R24, R43). A write that times out leaves the walk in DRAIN with
its line unrestored, and the walk moves on when the tag is freed (R78, R79, R149). A line joins the list
once; beyond 16 lines the overflow count steps, to 65535 (R69). That an expiry stands for the moment its
limit is reached is the model's choice (log 3). -/
def Obligations.WalkWrites : Prop :=
  ∀ (s : State) (w : Walk) (t : Fin 32) (op : LineOp) (line : Nat) (m : Timer) (h : LineData)
      (k : CkptNumber),
    inReset s = false → s.restore.walk = some w → s.ckpt.ctrl = .restoring k → s.casc.role = .solo →
    s.casc.agreement = none → ChannelsBusy s → NoFlags s → w.stopped = false → w.header = some h →
    opKind op = .write →
    let freed := { s.down with tags := s.down.tags.filter fun u => u.num != t }
    let missed := { s.restore with
      unrestored := if s.restore.unrestored.length < 16 ∧ headerAddr h ∉ s.restore.unrestored
        then s.restore.unrestored ++ [headerAddr h] else s.restore.unrestored
      overflow := if 16 ≤ s.restore.unrestored.length ∧ headerAddr h ∉ s.restore.unrestored
        then min (s.restore.overflow + 1) 65535 else s.restore.overflow }
    let next (r : Restore) (applied : Nat) := { s with
      restore := { r with
        walk := some
          { w with
          position := w.position - 1, stage := .header, header := none, oldData := none
          applied := applied, quarantined := w.quarantined } }
      down := { freed with restoreReady := s.down.restoreReady ++
        [⟨.walkHeader, .read, s.log.base + 2 * ((w.position - 1).toNat % s.log.capacity)⟩] } }
    (tagState t s.down = some (.outstanding ⟨.walkWrite, op, line⟩ (some m)) →
      (w.position ≠ w.floor →
        exec (.downstreamResponse t .write .ok 0) s = .next (next s.restore (w.applied + 1))
        ∧ exec (.downstreamResponse t .write .error 0) s = .next (next missed w.applied))
      ∧ (∀ r, w.position = w.floor → findCkpt w.target s = some r → s.restore.unrestored = [] →
          s.restore.overflow = 0 →
        exec (.downstreamResponse t .write .ok 0) s = .next { s with
          down := freed
          restore := { s.restore with walk := none }
          ckpt := { s.ckpt with
            stack := s.ckpt.stack.takeWhile (fun x => x.number != w.target) ++ [{ r with records := 0 }]
            generation := s.ckpt.generation + 1, fence := false, ctrl := .idle }
          filter := if s.ckpt.generation = 65535 then [] else s.filter
          log := { s.log with head := r.mark, allocated := r.mark }
          mgmt := { s.mgmt with
            result := some ⟨.rollback, .command, .done, some w.target, w.applied + 1, 0, none⟩
            latches := s.mgmt.latches ||| 0x002 } })
      ∧ (m.limit ≠ 0 → exec (.downstreamTimeout t) s = .next { s with
        restore := { missed with walk := some { w with stage := .drain, quarantined := true } }
        down := { s.down with tags := s.down.tags.map fun u =>
          if u.num = t then { u with state := .quarantined .write .walkWrite } else u }
        mgmt := { s.mgmt with
          counters := { s.mgmt.counters with
            downstreamTimeouts := satInc s.mgmt.counters.downstreamTimeouts }
          latches := s.mgmt.latches ||| 0x100 } }))
    ∧ (∀ st, tagState t s.down = some (.quarantined .write .walkWrite) → w.stage = .drain →
        w.quarantined = true → w.position ≠ w.floor →
      exec (.downstreamResponse t .write st 0) s = .next { s with
        restore := { s.restore with
          walk := some
            { w with
              position := w.position - 1, stage := .header, header := none, oldData := none
              quarantined := false } }
        down := { freed with restoreReady := s.down.restoreReady ++
          [⟨.walkHeader, .read, s.log.base + 2 * ((w.position - 1).toNat % s.log.capacity)⟩] } })

/-- The end of a walk: at the floor, after a line write, a poisoned record or a late response in DRAIN, it
truncates to the target, with DONE where no line is unrestored and PARTIAL otherwise (R80, R82, R83, R24,
R43); a read in ERROR, or the late response of a read that timed out, ends it CORRUPT in HELD, every LIVE
checkpoint BROKEN (R76, R78, R79, R84, R16). A solo unit writes the result and latches ROLLBACK_DONE; so
does a follower with the cascade id, and sends DONE with the worse outcome once the one from below is
known or not needed (R83, R84, R170); a leader keeps its outcome and counts, and writes the result when
DONE from below is known too (R83, R163, R164). -/
def Obligations.WalkEnds : Prop :=
  ∀ (s u : State) (w : Walk) (t : Fin 32) (c : Instr) (o : DoneOutcome) (applied : Nat) (k : CkptNumber)
      (r : CkptRecord) (h data : LineData),
    inReset s = false → s.restore.walk = some w → s.ckpt.ctrl = .restoring k →
    findCkpt w.target s = some r → r.state = .live → s.log.waitList = [] → ChannelsBusy s → NoFlags s →
    let freed := { s.down with tags := s.down.tags.filter fun x => x.num != t }
    let missed := { s.restore with
      unrestored := if s.restore.unrestored.length < 16 ∧ headerAddr h ∉ s.restore.unrestored
        then s.restore.unrestored ++ [headerAddr h] else s.restore.unrestored
      overflow := if 16 ≤ s.restore.unrestored.length ∧ headerAddr h ∉ s.restore.unrestored
        then min (s.restore.overflow + 1) 65535 else s.restore.overflow }
    let truncated (x : Restore) := { s with
      down := freed
      restore := { x with walk := none }
      ckpt := { s.ckpt with
        stack := s.ckpt.stack.takeWhile (fun x => x.number != w.target) ++ [{ r with records := 0 }]
        generation := s.ckpt.generation + 1, fence := false, ctrl := .idle }
      filter := if s.ckpt.generation = 65535 then [] else s.filter
      log := { s.log with head := r.mark, allocated := r.mark } }
    let corrupt := { s with
      down := freed
      restore := { s.restore with walk := none }
      ckpt := { s.ckpt with
        ctrl := .held .corrupt
        stack := s.ckpt.stack.map fun x => { x with state := .broken } }
      log := { s.log with stallClock := 0 }
      mgmt := { s.mgmt with latches := s.mgmt.latches ||| 0x004 } }
    let request (own : Owner) (op : LineOp) := ∃ line m, tagState t s.down = some (.outstanding ⟨own, op, line⟩ (some m))
    let outcome := if s.restore.unrestored = [] ∧ s.restore.overflow = 0 then DoneOutcome.done else .partly
    let atFloor := w.stopped = false ∧ w.position = w.floor
    (∃ op, c = .downstreamResponse t .write .ok 0 ∧ opKind op = .write ∧ request .walkWrite op ∧ atFloor
        ∧ u = truncated s.restore ∧ o = outcome ∧ applied = w.applied + 1)
      ∨ (∃ op, c = .downstreamResponse t .write .error 0 ∧ opKind op = .write ∧ request .walkWrite op
        ∧ w.header = some h ∧ atFloor ∧ u = truncated missed ∧ o = .partly ∧ applied = w.applied)
      ∨ (c = .downstreamResponse t .read .ok h ∧ request .walkHeader .read
        ∧ headerCorrupt h w.position s.cls = false ∧ headerFlags h = 1 ∧ atFloor
        ∧ u = truncated missed ∧ o = .partly ∧ applied = w.applied)
      ∨ (∃ st, c = .downstreamResponse t .write st 0 ∧ w.stage = .drain ∧ atFloor
        ∧ tagState t s.down = some (.quarantined .write .walkWrite)
        ∧ u = truncated s.restore ∧ o = outcome ∧ applied = w.applied)
      ∨ (c = .downstreamResponse t .read .error data ∧ (request .walkHeader .read ∨ request .walkData .read)
        ∧ u = corrupt ∧ o = .corrupt ∧ applied = w.applied)
      ∨ (∃ st, c = .downstreamResponse t .read st data ∧ w.stage = .drain ∧ w.stopped = true
        ∧ (tagState t s.down = some (.quarantined .read .walkHeader)
          ∨ tagState t s.down = some (.quarantined .read .walkData))
        ∧ u = corrupt ∧ o = .corrupt ∧ applied = w.applied) →
    let lines := u.restore.unrestored.length + u.restore.overflow
    let reported (src : Source) (x : DoneOutcome) (target : CkptNumber) (id : Option OpId) : Mgmt :=
      { u.mgmt with
        result := some ⟨.rollback, src, resultOutcome x, some target, applied, lines, id⟩
        latches := u.mgmt.latches ||| 0x002 }
    (s.casc.role = .solo → s.casc.agreement = none →
      exec c s = .next { u with mgmt := reported .command o w.target none })
    ∧ ∀ a, s.casc.agreement = some a → a.go = true → a.own = none →
      let noted := { s.casc with
        agreement := some { a with own := some o, applied := applied, unrestored := lines } }
      (s.casc.role = .follower →
        let sent (x : DoneOutcome) : Cascade := { s.casc with
          agreement := none, upList := s.casc.upList ++ [.done a.id x] }
        let mgmt := reported .cascade o w.target (some a.id)
        (s.casc.last = false → a.belowDone = none →
          exec c s = .next { u with casc := noted, mgmt := mgmt })
        ∧ (s.casc.last = true → a.belowDone = none → s.casc.upList.length < 4 →
          exec c s = .next { u with casc := sent o, mgmt := mgmt })
        ∧ (∀ b, a.belowDone = some b → s.casc.upList.length < 4 →
          exec c s = .next { u with casc := sent (worse o b), mgmt := mgmt }))
      ∧ (s.casc.role = .leader →
        (a.belowDone = none → exec c s = .next { u with casc := noted })
        ∧ (∀ b k', a.belowDone = some b → a.goal = .rollback k' →
          exec c s = .next { u with
            casc := { s.casc with agreement := none }
            mgmt := reported a.source (worse o b) k' (some a.id) }))

/-! ## The cascade link -/

/-- MESSAGE_SENT removes the oldest message of a send list (R158). A bad message on a used side is
discarded and counted, CASCADE_FAULT latched; a message from an unused side changes nothing; one that
travels the wrong way for its kind latches CASCADE_FAULT and changes nothing else (R155, R159). ASK from
below: a leader with an operation in progress latches the CASCADE flag, a flag already set counted as
merged and TRIGGER_MISSED latched in HELD, and in every state makes the trigger check, as
TRIGGER_TAKE_START makes it (R19, R20, R173, R21, R211); a follower that is not the last sends it up, an
ASK already on the list absorbing it (R173, R158); on a list full of other messages it is lost and
CASCADE_FAULT latched (R206, log 10). -/
def Obligations.LinkMessages : Prop :=
  ∀ (s : State) (side : Side) (id : OpId) (kind : OpKind) (number : CkptNumber) (v : ReadyVerdict)
      (o : DoneOutcome) (src : AskSource), inReset s = false →
    let used := (s.casc.role = .leader ∧ side = .down)
      ∨ (s.casc.role = .follower ∧ (side = .up ∨ s.casc.last = false))
    let faulted := { s with mgmt := { s.mgmt with latches := s.mgmt.latches ||| 0x200 } }
    let merged := { s.mgmt.counters with triggersMerged := satAdd s.mgmt.counters.triggersMerged 1 }
    let ask := s.casc.upList.any fun m => m == .ask .line || m == .ask .timer
    exec (.messageSent side) s = .next { s with casc := { s.casc with
        upList := if side = .up then s.casc.upList.drop 1 else s.casc.upList
        downList := if side = .down then s.casc.downList.drop 1 else s.casc.downList } }
    ∧ (∀ bytes, used → decodeMessage bytes = none →
      exec (.badMessage side bytes) s
        = .next { faulted with casc := { s.casc with badCount := min (s.casc.badCount + 1) 65535 } })
    ∧ (¬ used →
      (∀ bytes, exec (.badMessage side bytes) s = .next s)
      ∧ exec (.prepareReceived side id kind number) s = .next s
      ∧ exec (.readyReceived side id v) s = .next s
      ∧ exec (.goReceived side id number) s = .next s
      ∧ exec (.abandonReceived side id) s = .next s
      ∧ exec (.doneReceived side id o) s = .next s
      ∧ exec (.askReceived side src) s = .next s)
    ∧ (used → side = .up →
      exec (.readyReceived side id v) s = .next faulted
      ∧ exec (.doneReceived side id o) s = .next faulted
      ∧ exec (.askReceived side src) s = .next faulted)
    ∧ (used → side = .down → number ≠ 0 →
      exec (.prepareReceived side id kind number) s = .next faulted
      ∧ exec (.goReceived side id number) s = .next faulted
      ∧ exec (.abandonReceived side id) s = .next faulted)
    ∧ (s.casc.role = .leader →
      let latched := { s with
        ckpt := { s.ckpt with cascadeFlag := true }
        mgmt := { s.mgmt with
          counters := if s.ckpt.cascadeFlag then merged else s.mgmt.counters
          latches := if isHeld s then s.mgmt.latches ||| 0x040 else s.mgmt.latches } }
      exec (.askReceived .down src) s = exec .triggerTakeStart latched
      ∧ (s.ckpt.ctrl ≠ .idle → ChannelsBusy s → exec (.askReceived .down src) s = .next latched))
    ∧ (s.casc.role = .follower → s.casc.last = false →
      (ask = false → s.casc.upList.length < 4 →
        exec (.askReceived .down src) s
          = .next { s with casc := { s.casc with upList := s.casc.upList ++ [.ask src] } })
      ∧ (ask = true →
        exec (.askReceived .down src) s = .next { s with mgmt := { s.mgmt with counters := merged } })
      ∧ (ask = false → 4 ≤ s.casc.upList.length →
        exec (.askReceived .down src) s = .next faulted))

/-- PREPARE at a follower (R166): with an agreement in progress, or failing a check, it answers
READY(REFUSE) with the reason of the first check that fails, and remembers a refused id as abandoned;
accepted, it makes the record with the hold timer, sends the PREPARE down unless it is the last, raises
the fence and enters SETTLING, a rollback also clearing the unrestored list (R70). Where the tracker is
settled already, as it is in HELD, the settle is part of the acceptance: the controller enters AGREEING with
the local phase SETTLED, and the last of the chain sends READY(OK) in the same step (R71, R167). -/
def Obligations.Prepare : Prop :=
  ∀ (s : State) (id : OpId) (number : CkptNumber), inReset s = false → s.casc.role = .follower →
    s.casc.upList.length < 4 → number ≠ 0 →
    let take := exec (.prepareReceived .up id .take 0) s
    let rollback := exec (.prepareReceived .up id .rollback number) s
    let refused (reason : RefuseReason) := Host.Outcome.next (φ := Fault) (ρ := Refusal) { s with
      casc := { s.casc with
        upList := s.casc.upList ++ [.ready id (.refuse reason)], abandoned := some id } }
    let accepted (settles : Bool) (g : Goal) (m : Message) : Cascade := { s.casc with
      agreement := some
        { id := id, goal := g, source := .cascade, settled := settles
          below := if s.casc.last then .notNeeded else .awaited
          readySent := if settles ∧ s.casc.last then .ok else .none
          go := false, own := none, belowDone := none, pushed := none
          applied := 0, unrestored := 0, timer := some ⟨0, s.casc.holdLimit⟩ }
      upList := if settles ∧ s.casc.last then s.casc.upList ++ [.ready id .ok] else s.casc.upList
      downList := if s.casc.last then s.casc.downList else s.casc.downList ++ [m] }
    let room := s.ckpt.stack.length < 8 ∨ s.ckpt.rolling = true
    let startable := s.ckpt.ctrl = .idle ∨ ∃ r, s.ckpt.ctrl = .held r
    (s.casc.agreement.isSome = true →
      let busy := Host.Outcome.next (φ := Fault) (ρ := Refusal) { s with casc := { s.casc with
        upList := s.casc.upList ++ [.ready id (.refuse .state)] } }
      take = busy ∧ rollback = busy)
    ∧ (s.casc.agreement = none →
      (s.ckpt.ctrl ≠ .idle ∨ s.log.configured = false → take = refused .state)
      ∧ (s.ckpt.ctrl = .idle → s.log.configured = true → ¬ room → take = refused .stackFull)
      ∧ (s.ckpt.ctrl = .idle → s.log.configured = true → room → ChannelsBusy s →
          s.casc.downList.length < 4 →
        take = .next { s with
          casc := accepted (settled s) .take (.prepare id .take 0)
          ckpt := { s.ckpt with
            fence := true
            ctrl := if settled s then .agreeing .take .cascade else .settling .take .cascade } })
      ∧ (¬ startable → rollback = refused .state)
      ∧ (startable → (∀ r ∈ s.ckpt.stack, r.number ≠ number) → rollback = refused .notFound)
      ∧ (∀ r, startable → findCkpt number s = some r → r.state = .broken → rollback = refused .broken)
      ∧ (∀ r, startable → findCkpt number s = some r → r.state = .live → s.log.waitList = [] →
          ChannelsBusy s → s.casc.downList.length < 4 →
        rollback = .next { s with
          casc := accepted (rollbackSettled s) (.rollback number) (.prepare id .rollback number)
          ckpt := { s.ckpt with
            fence := true
            ctrl := if rollbackSettled s then .agreeing (.rollback number) .cascade
              else .settling (.rollback number) .cascade }
          restore := { s.restore with unrestored := [], overflow := 0 }
          log := { s.log with stallClock := 0 } }))

/-- READY at a leader, and its agreement timer, in SETTLING before the local settle and in AGREEING
after it: READY(OK) stops the timer, and where the local phase is SETTLED GO follows in the same step
(R162, R163); READY(REFUSE) records the reason, and it and the timer send ABANDON and end the agreement
REFUSED or TIMEOUT, the fence lowered (R162, R13); a READY of the agreement last in progress is
discarded, and any other latches CASCADE_FAULT (R165). That an expiry stands for the moment its limit is
reached is the model's choice (log 3). That an event which cannot happen changes nothing is the model's
choice (log 4). -/
def Obligations.LeaderReady : Prop :=
  ∀ (s : State) (id : OpId) (v : ReadyVerdict), inReset s = false → s.casc.role = .leader →
    ChannelsBusy s → NoFlags s →
    let ready := exec (.readyReceived .down id v) s
    let faulted := { s with mgmt := { s.mgmt with latches := s.mgmt.latches ||| 0x200 } }
    (AtRest s → ready = .next (if id = s.casc.opId then s else faulted)
      ∧ exec .agreementTimeout s = .next s)
    ∧ ∀ a, s.casc.agreement = some a → NoSettleDue s →
      let heard := { s with casc := { s.casc with
        agreement := some { a with below := .ok, timer := none } } }
      let ended (o : ResultOutcome) (reason : Option RefuseReason) := { s with
        casc := { s.casc with
          agreement := none, lastRefusal := reason, downList := s.casc.downList ++ [.abandon a.id] }
        ckpt := { s.ckpt with fence := false, ctrl := .idle }
        mgmt := { s.mgmt with
          result := some (match a.goal with
            | .take => ⟨.take, a.source, o, none, 0, 0, some a.id⟩
            | .rollback k => ⟨.rollback, a.source, o, some k, 0, 0, some a.id⟩)
          latches := s.mgmt.latches ||| (if a.goal = .take then 0x001 else 0x002) } }
      (id = a.id → a.below = .awaited → a.go = false → v = .ok →
        (a.settled = false → ready = .next heard)
        ∧ (a.settled = true → ready = exec .leaderGo heard))
      ∧ (∀ reason, id = a.id → a.below = .awaited → a.go = false → v = .refuse reason →
          s.casc.downList.length < 4 →
        ready = .next (ended .refused (some reason)))
      ∧ (id ≠ a.id ∨ a.below ≠ .awaited →
          (a.go = false ∧ (a.settled = false ∨ a.below ≠ .ok))
            ∨ (a.go = true ∧ (a.own = none ∨ a.belowDone = none)) →
        ready = .next faulted)
      ∧ (a.timer = none → exec .agreementTimeout s = .next s)
      ∧ (a.timer.isSome = true → s.casc.downList.length < 4 →
        exec .agreementTimeout s = .next (ended .timeout s.casc.lastRefusal))

/-- READY from below, ABANDON and the hold timer at a follower. Before GO a READY(OK) from below is noted, and
passed up where the unit has settled, READY(REFUSE) answered up with its reason if no READY has been sent
(R167); ABANDON of the agreement goes down unless the unit is the last, and it and the hold timer end the
agreement REFUSED or TIMEOUT, its id remembered (R168). After GO no hold timer runs, and a READY or ABANDON of
the agreement is discarded and latches CASCADE_FAULT (R171). A READY of the abandoned id is discarded and
another latches CASCADE_FAULT; an ABANDON of another id is only forwarded (R171). That an expiry stands for
the moment its limit is reached is the model's choice (log 3). That an event which cannot happen changes
nothing, that an id both the record's and abandoned is the record's, and that no READY is awaited after a
READY(REFUSE) from below, are the model's choices (log 4, log 24, log 27). -/
def Obligations.FollowerReadyAbandon : Prop :=
  ∀ (s : State) (id : OpId) (v : ReadyVerdict), inReset s = false → s.casc.role = .follower →
    ChannelsBusy s → s.casc.upList.length < 4 → s.casc.downList.length < 4 →
    let ready := exec (.readyReceived .down id v) s
    let abandon := exec (.abandonReceived .up id) s
    let faulted := { s with mgmt := { s.mgmt with latches := s.mgmt.latches ||| 0x200 } }
    let down := if s.casc.last then s.casc.downList else s.casc.downList ++ [.abandon id]
    (AtRest s →
      (s.casc.last = false → ready = .next (if s.casc.abandoned = some id then s else faulted))
      ∧ abandon = .next { s with casc := { s.casc with downList := down } }
      ∧ exec .holdTimeout s = .next s)
    ∧ (∀ a, s.casc.agreement = some a → a.go = true →
      (s.casc.last = false → NoSettleDue s → a.own = none ∨ a.belowDone = none →
        ready = .next (if id ≠ a.id ∧ s.casc.abandoned = some id then s else faulted))
      ∧ abandon = .next (if id = a.id then faulted else { s with casc := { s.casc with downList := down } })
      ∧ exec .holdTimeout s = .next s)
    ∧ ∀ a, s.casc.agreement = some a → a.go = false → a.own = none →
      let left (o : ResultOutcome) (down : List Message) := { s with
        casc := { s.casc with agreement := none, abandoned := some a.id, downList := down }
        ckpt := { s.ckpt with fence := false, ctrl := .idle }
        mgmt := { s.mgmt with
          result := some (match a.goal with
            | .take => ⟨.take, a.source, o, none, 0, 0, some a.id⟩
            | .rollback k => ⟨.rollback, a.source, o, some k, 0, 0, some a.id⟩)
          latches := s.mgmt.latches ||| (if a.goal = .take then 0x001 else 0x002) } }
      let due := a.settled = true ∧ a.readySent = .none ∧ (a.below = .ok ∨ a.below = .notNeeded)
      let heard := { s with casc := { s.casc with agreement := some { a with below := .ok } } }
      (s.casc.last = false → NoSettleDue s → id = a.id → a.below = .awaited →
        (v = .ok → (a.settled = false ∨ a.readySent ≠ .none) → ready = .next heard)
        ∧ (v = .ok → a.settled = true → a.readySent = .none → ready = exec .readyOkSend heard)
        ∧ (∀ reason, v = .refuse reason →
          ready = .next { s with casc := { s.casc with
            agreement := some
              { a with
                below := .refused
                readySent := if a.readySent = .none then .refuse else a.readySent }
            upList := if a.readySent = .none then s.casc.upList ++ [.ready id (.refuse reason)]
              else s.casc.upList } }))
      ∧ (s.casc.last = false → NoSettleDue s → ¬ due →
        (id ≠ a.id → ready = .next (if s.casc.abandoned = some id then s else faulted))
        ∧ (id = a.id → a.below ≠ .awaited → ready = .next faulted))
      ∧ (id = a.id → abandon = .next (left .refused down))
      ∧ (id ≠ a.id → abandon = .next { s with casc := { s.casc with downList := down } })
      ∧ (a.timer = none → exec .holdTimeout s = .next s)
      ∧ (a.timer.isSome = true → exec .holdTimeout s = .next (left .timeout s.casc.downList))

/-- GO at a follower that awaits it: the hold timer stops and GO goes down unless the unit is the last;
a take pushes the record of the GO's number, after the release of the oldest record of a full stack in rolling
mode, or fails REFUSED on a full stack outside rolling mode or a number held (R169, R13, R14, R4); a rollback
begins its walk, or ends DONE at once, truncated to its target, where no record lies in the range (R75, R82,
R83). The last of the chain also sends DONE, its agreement then
over (R170). A GO of an agreement the unit is not in answers DONE(FAILED) and ABANDON and latches
CASCADE_FAULT (R171). That an id both the record's and abandoned is the record's, and that a GO for a
rollback walks to the record's target whatever number it names, are the model's choices (log 24, log 25). -/
def Obligations.FollowerGo : Prop :=
  ∀ (s : State) (id : OpId) (number : CkptNumber), inReset s = false → s.casc.role = .follower →
    number ≠ 0 → ChannelsBusy s → s.casc.upList.length < 4 → s.casc.downList.length < 4 →
    let go := exec (.goReceived .up id number) s
    let down := if s.casc.last then s.casc.downList else s.casc.downList ++ [.go id number]
    let casc (a : Agreement) (o : DoneOutcome) : Cascade :=
      if s.casc.last then
        { s.casc with agreement := none, upList := s.casc.upList ++ [.done id o], downList := down }
      else
        { s.casc with
          agreement := some { a with go := true, timer := none, own := some o }, downList := down }
    let next := if number = 65535 then 1 else number + 1
    (s.casc.agreement = none ∨ (∃ a, s.casc.agreement = some a ∧ a.id ≠ id) →
      go = .next { s with
        casc := { s.casc with
          upList := s.casc.upList ++ [.done id .failed]
          downList := if s.casc.last then s.casc.downList else s.casc.downList ++ [.abandon id] }
        mgmt := { s.mgmt with latches := s.mgmt.latches ||| 0x200 } })
    ∧ (∀ a, s.casc.agreement = some a → a.id = id → a.go = true ∨ a.readySent ≠ .ok →
      go = .next { s with mgmt := { s.mgmt with latches := s.mgmt.latches ||| 0x200 } })
    ∧ (∀ a src, s.casc.agreement = some a → a.id = id → a.go = false → a.readySent = .ok →
        a.belowDone = none →
      let failed (stack : List CkptRecord) (log : Log) := { s with
        casc := casc a .failed
        ckpt := { s.ckpt with stack := stack, nextNumber := next, fence := false, ctrl := .idle }
        log := log
        mgmt := { s.mgmt with
          result := some ⟨.take, .cascade, .refused, some number, 0, 0, some id⟩
          latches := s.mgmt.latches ||| 0x001 } }
      (∀ (stack : List CkptRecord) (log : Log), s.ckpt.ctrl = .agreeing .take src → a.goal = .take →
          (s.ckpt.stack.length < 8 ∧ stack = s.ckpt.stack ∧ log = s.log)
            ∨ (8 ≤ s.ckpt.stack.length ∧ s.ckpt.rolling = true ∧ s.log.waitList = []
              ∧ stack = s.ckpt.stack.drop 1
              ∧ log = { s.log with
                tail := match (s.ckpt.stack.drop 1).head? with
                  | some r => r.mark
                  | none => s.log.head
                stallClock := 0 }) →
        ((∀ r ∈ stack, r.number ≠ number) →
          go = .next { s with
            casc := casc a .done
            ckpt := { s.ckpt with
              stack := stack ++ [⟨number, s.log.head, .live, 0, .cascade⟩], nextNumber := next
              generation := s.ckpt.generation + 1, fence := false, ctrl := .idle }
            filter := if s.ckpt.generation = 65535 then [] else s.filter
            log := log
            mgmt := { s.mgmt with
              result := some ⟨.take, .cascade, .done, some number, 0, 0, some id⟩
              latches := s.mgmt.latches ||| 0x001 } })
        ∧ ((∃ r ∈ stack, r.number = number) → go = .next (failed stack log)))
      ∧ (s.ckpt.ctrl = .agreeing .take src → a.goal = .take → 8 ≤ s.ckpt.stack.length →
          s.ckpt.rolling = false →
        go = .next (failed s.ckpt.stack s.log))
      ∧ (∀ k r, s.ckpt.ctrl = .agreeing (.rollback k) src → a.goal = .rollback k → a.own = none →
          findCkpt k s = some r → s.log.head = r.mark → s.restore.unrestored = [] →
          s.restore.overflow = 0 →
        go = .next { s with
          casc := casc { a with applied := 0, unrestored := 0 } .done
          ckpt := { s.ckpt with
            stack := s.ckpt.stack.takeWhile (fun x => x.number != k) ++ [{ r with records := 0 }]
            generation := s.ckpt.generation + 1, fence := false, ctrl := .idle }
          filter := if s.ckpt.generation = 65535 then [] else s.filter
          log := { s.log with allocated := r.mark }
          restore := { s.restore with walk := none }
          mgmt := { s.mgmt with
            result := some ⟨.rollback, .cascade, .done, some k, 0, 0, some id⟩
            latches := s.mgmt.latches ||| 0x002 } })
      ∧ (∀ k r, s.ckpt.ctrl = .agreeing (.rollback k) src → a.goal = .rollback k → a.own = none →
          findCkpt k s = some r → s.log.head ≠ r.mark →
        go = .next { s with
          casc := { s.casc with
            agreement := some { a with go := true, timer := none }, downList := down }
          ckpt := { s.ckpt with ctrl := .restoring k }
          restore := { s.restore with
            walk := some
              { target := k, floor := r.mark, position := s.log.head - 1, stage := .header
                header := none, oldData := none, applied := 0, stopped := false
                quarantined := false } }
          down := { s.down with restoreReady := s.down.restoreReady ++
            [⟨.walkHeader, .read, s.log.base + 2 * ((s.log.head - 1).toNat % s.log.capacity)⟩] } }))

/-- DONE from below, and DONE_SEND: with the own outcome known a leader ends its agreement with the
worse outcome, a FAILED one written as SPLIT (R164), and a follower sends the worse one up (R170);
before that the outcome is kept. At both, PARTIAL or CORRUPT for a take latches CASCADE_FAULT and counts as
FAILED (R164, R170). A stray DONE is discarded, answered DONE(FAILED) for an abandoned id, or latches
CASCADE_FAULT, and so does one of the agreement before GO, or at a follower a second one (R165, R170, R171);
that a leader discards a second DONE is the model's choice (log 11). That an event which cannot happen
changes nothing, and that an id both the record's and abandoned is the record's, are the model's choices
(log 4, log 24). -/
def Obligations.DonePassedUp : Prop :=
  ∀ (s : State) (id : OpId) (o : DoneOutcome), inReset s = false → ChannelsBusy s → NoFlags s →
    NoSettleDue s → s.casc.upList.length < 4 →
    let got := exec (.doneReceived .down id o) s
    let latches := s.mgmt.latches ||| 0x200
    let faulted := { s with mgmt := { s.mgmt with latches := latches } }
    let abandoned := { s with casc := { s.casc with upList := s.casc.upList ++ [.done id .failed] } }
    let wrong (g : Goal) := g = .take ∧ (o = .partly ∨ o = .corrupt)
    let taken (g : Goal) := if wrong g then DoneOutcome.failed else o
    let mgmt (g : Goal) : Mgmt := { s.mgmt with latches := if wrong g then latches else s.mgmt.latches }
    let noted (a : Agreement) := { s with
      casc := { s.casc with agreement := some { a with belowDone := some (taken a.goal) } }
      mgmt := mgmt a.goal }
    (s.casc.role = .leader →
      (s.casc.agreement = none → got = .next (if id = s.casc.opId then s else faulted))
      ∧ ∀ a, s.casc.agreement = some a →
        (id ≠ a.id ∨ a.go = false → a.settled = false ∨ a.below ≠ .ok ∨ a.go = true →
            a.go = false ∨ a.own = none ∨ a.belowDone = none →
          got = .next faulted)
        ∧ (id = a.id → a.go = true → a.own = none → a.belowDone.isSome = true → got = .next s)
        ∧ (id = a.id → a.go = true → a.belowDone = none →
          (a.own = none → got = .next (noted a))
          ∧ (∀ x, a.own = some x → got = .next { s with
            casc := { s.casc with agreement := none }
            mgmt := { s.mgmt with
              result := some (match a.goal with
                | .take => ⟨.take, a.source, resultOutcome (worse x (taken .take)), a.pushed, 0, 0, some a.id⟩
                | .rollback k =>
                  ⟨.rollback, a.source, resultOutcome (worse x o), some k, a.applied, a.unrestored, some a.id⟩)
              latches := (mgmt a.goal).latches ||| (if a.goal = .take then 0x001 else 0x002) } })))
    ∧ (s.casc.role = .follower →
      (s.casc.last = false →
        (s.casc.agreement = none →
          got = .next (if s.casc.abandoned = some id then abandoned else faulted))
        ∧ ∀ a, s.casc.agreement = some a →
          (id = a.id → a.go = true → a.belowDone = none →
            (a.own = none → got = .next (noted a))
            ∧ (∀ x, a.own = some x → got = .next { s with
              casc := { s.casc with
                agreement := none, upList := s.casc.upList ++ [.done id (worse x (taken a.goal))] }
              mgmt := mgmt a.goal }))
          ∧ ((a.go = false ∧ (a.settled = false ∨ a.readySent ≠ .none
                ∨ (a.below ≠ .ok ∧ a.below ≠ .notNeeded)))
              ∨ (a.go = true ∧ (a.own = none ∨ a.belowDone = none)) →
            (id = a.id → a.go = false ∨ a.belowDone.isSome = true → got = .next faulted)
            ∧ (id ≠ a.id → got = .next (if s.casc.abandoned = some id then abandoned else faulted))))
      ∧ ∀ a, s.casc.agreement = some a →
        let answer (x : DoneOutcome) := { s with casc := { s.casc with
          agreement := none, upList := s.casc.upList ++ [.done a.id x] } }
        (a.go = false ∨ a.own = none ∨ (s.casc.last = false ∧ a.belowDone = none) →
          exec .doneSend s = .next s)
        ∧ (∀ x, a.go = true → a.own = some x →
          (∀ b, a.belowDone = some b → exec .doneSend s = .next (answer (worse x b)))
          ∧ (s.casc.last = true → a.belowDone = none → exec .doneSend s = .next (answer x))))

/-- LEADER_GO and READY_OK_SEND: once the local phase is SETTLED and READY(OK) has come, or is not needed,
a leader sends GO and pushes the record of the number it assigns, or begins its walk (R163, R75), which
ends DONE at once, truncated to its target, where no record lies in the range (R75, R82, R83), and a
follower that has sent no READY sends READY(OK) (R167); else nothing is sent. That an event which cannot
happen changes nothing is the model's choice (log 4). -/
def Obligations.GoAndReadySends : Prop :=
  ∀ s : State, inReset s = false → PortsStill s →
    (s.casc.agreement = none → exec .leaderGo s = .next s ∧ exec .readyOkSend s = .next s)
    ∧ ∀ a, s.casc.agreement = some a → a.go = false → a.own = none →
      let ready := a.settled = true ∧ (a.below = .ok ∨ (s.casc.role = .follower ∧ a.below = .notNeeded))
      (¬ ready ∨ s.casc.role ≠ .leader → exec .leaderGo s = .next s)
      ∧ (¬ ready ∨ s.casc.role ≠ .follower ∨ a.readySent ≠ .none → exec .readyOkSend s = .next s)
      ∧ (ready → s.casc.role = .follower → a.readySent = .none → s.casc.upList.length < 4 →
        exec .readyOkSend s = .next { s with casc := { s.casc with
          agreement := some { a with readySent := .ok }
          upList := s.casc.upList ++ [.ready a.id .ok] } })
      ∧ (ready → s.casc.role = .leader → s.casc.downList.length < 4 → a.belowDone = none →
        (a.goal = .take →
          exec .leaderGo s = .next { s with
            casc := { s.casc with
              agreement := some
                { a with go := true, own := some .done, pushed := some (assignedNumber s) }
              downList := s.casc.downList ++ [.go a.id (assignedNumber s)] }
            ckpt := { s.ckpt with
              stack := s.ckpt.stack ++ [⟨assignedNumber s, s.log.head, .live, 0, a.source⟩]
              nextNumber := if assignedNumber s = 65535 then 1 else assignedNumber s + 1
              generation := s.ckpt.generation + 1, fence := false, ctrl := .idle }
            filter := if s.ckpt.generation = 65535 then [] else s.filter })
        ∧ (∀ k r, a.goal = .rollback k → findCkpt k s = some r → s.log.head = r.mark →
            s.restore.unrestored = [] → s.restore.overflow = 0 →
          exec .leaderGo s = .next { s with
            casc := { s.casc with
              agreement := some { a with go := true, own := some .done, applied := 0, unrestored := 0 }
              downList := s.casc.downList ++ [.go a.id k] }
            ckpt := { s.ckpt with
              stack := s.ckpt.stack.takeWhile (fun x => x.number != k) ++ [{ r with records := 0 }]
              generation := s.ckpt.generation + 1, fence := false, ctrl := .idle }
            filter := if s.ckpt.generation = 65535 then [] else s.filter
            log := { s.log with allocated := r.mark }
            restore := { s.restore with walk := none } })
        ∧ (∀ k r, a.goal = .rollback k → findCkpt k s = some r → s.log.head ≠ r.mark →
          exec .leaderGo s = .next { s with
            casc := { s.casc with
              agreement := some { a with go := true }
              downList := s.casc.downList ++ [.go a.id k] }
            ckpt := { s.ckpt with ctrl := .restoring k }
            restore := { s.restore with
              walk := some
                { target := k, floor := r.mark, position := s.log.head - 1, stage := .header
                  header := none, oldData := none, applied := 0, stopped := false
                  quarantined := false } }
            down := { s.down with restoreReady := s.down.restoreReady ++
              [⟨.walkHeader, .read, s.log.base + 2 * ((s.log.head - 1).toNat % s.log.capacity)⟩] } }))

/-- A full send list (R158): a message other than ASK takes the place of an ASK that is not being sent, the
first of the list being the one on the line, and joins at the end; with no such ASK it is discarded and
CASCADE_FAULT latched. The command does all else as with room on the list: a follower's READY, DONE and
forwarded PREPARE, GO and ABANDON, a leader's PREPARE, GO and ABANDON. (An ASK on a full list: LinkMessages
and TriggerLatches.) That an id both the record's and abandoned is the record's, and that a GO is forwarded
with its number whatever the record's target, are the model's choices (log 24, log 25). -/
def Obligations.FullSendLists : Prop :=
  ∀ (s t : State) (c : Instr) (side : Side) (m : Message) (id : OpId) (number : CkptNumber)
      (reason : RefuseReason),
    inReset s = false → ChannelsBusy s → NoFlags s → s.log.waitList = [] → number ≠ 0 →
    let list := match side with | .up => s.casc.upList | .down => s.casc.downList
    let holding (l : List Message) (x : State) : State := { x with casc := match side with
      | .up => { x.casc with upList := l }
      | .down => { x.casc with downList := l } }
    let agrees (p : Agreement → Prop) := ∃ a, s.casc.agreement = some a ∧ p a
    let asked (kind : OpKind) (n : CkptNumber) := c = .prepareReceived .up id kind n
      ∧ ((kind = .take ∧ n = 0) ∨ (kind = .rollback ∧ n = number))
    let stray := c = .goReceived .up id number ∧ (∀ a, s.casc.agreement = some a → a.id ≠ id)
    let starts (x : Message) := s.casc.agreement = none ∧ (∃ d, Listening s d)
      ∧ ((c = .take ∧ checkTake s = none ∧ x = .prepare (s.casc.opId + 1) .take 0)
        ∨ (c = .rollback number ∧ checkRollback number s = none
          ∧ x = .prepare (s.casc.opId + 1) .rollback number))
    4 ≤ list.length →
    (s.casc.role = .follower ∧ side = .up
        ∧ ((∃ kind n, asked kind n
            ∧ ((agrees (fun _ => True) ∧ m = .ready id (.refuse .state))
              ∨ (s.casc.agreement = none ∧ prepareRefusal kind n s = some reason
                ∧ m = .ready id (.refuse reason))))
          ∨ (s.casc.last = false ∧ NoSettleDue s ∧ c = .readyReceived .down id (.refuse reason)
            ∧ agrees (fun a => a.id = id ∧ a.below = .awaited ∧ a.go = false ∧ a.readySent = .none
              ∧ a.own = none)
            ∧ m = .ready id (.refuse reason))
          ∨ (c = .readyOkSend ∧ agrees (fun a => a.id = id ∧ a.settled = true ∧ a.go = false
              ∧ (a.below = .ok ∨ a.below = .notNeeded) ∧ a.readySent = .none)
            ∧ m = .ready id .ok)
          ∨ (∃ o b, c = .doneSend ∧ agrees (fun a => a.id = id ∧ a.go = true ∧ a.own = some o
              ∧ (a.belowDone = some b ∨ (s.casc.last = true ∧ a.belowDone = none ∧ b = o)))
            ∧ m = .done id (worse o b))
          ∨ (∃ o, s.casc.last = false ∧ s.casc.agreement = none ∧ s.casc.abandoned = some id
            ∧ NoSettleDue s ∧ c = .doneReceived .down id o ∧ m = .done id .failed)
          ∨ (stray ∧ m = .done id .failed)))
      ∨ (s.casc.role = .follower ∧ side = .down ∧ s.casc.last = false
        ∧ ((stray ∧ m = .abandon id)
          ∨ (c = .abandonReceived .up id ∧ (∀ a, s.casc.agreement = some a → a.id = id → a.go = false)
            ∧ m = .abandon id)
          ∨ (c = .goReceived .up id number ∧ isAgreeing s = true
            ∧ agrees (fun a => a.id = id ∧ a.readySent = .ok ∧ a.go = false ∧ a.own = none
              ∧ a.belowDone = none)
            ∧ m = .go id number)
          ∨ (∃ kind n, asked kind n ∧ s.casc.agreement = none ∧ prepareRefusal kind n s = none
            ∧ m = .prepare id kind n)))
      ∨ (s.casc.role = .leader ∧ side = .down
        ∧ ((c = .agreementTimeout ∧ agrees (fun a => a.id = id ∧ a.timer.isSome = true)
            ∧ m = .abandon id)
          ∨ (c = .readyReceived .down id (.refuse reason)
            ∧ agrees (fun a => a.id = id ∧ a.below = .awaited ∧ a.go = false) ∧ m = .abandon id)
          ∨ (c = .leaderGo
            ∧ agrees (fun a => a.id = id ∧ a.settled = true ∧ a.below = .ok ∧ a.go = false
              ∧ ((a.goal = .take ∧ m = .go id (assignedNumber s))
                ∨ (a.goal = .rollback number ∧ m = .go id number))))
          ∨ starts m)) →
    exec c (holding [] s) = .next t →
    ((∃ src, .ask src ∈ list.drop 1) →
      exec c s = .next (holding
        (list.take 1 ++ (list.drop 1).filter (fun x => x != .ask .line && x != .ask .timer) ++ [m]) t))
    ∧ ((∀ src, .ask src ∉ list.drop 1) →
      exec c s = .next (holding list
        { t with mgmt := { t.mgmt with latches := t.mgmt.latches ||| 0x200 } }))
end

