-- ==== Sys2Proof/Laws/State.lean ====
section
/-! SUPPORT. One lemma per block per update of State, each true by definition. -/

namespace Sys2Proof.Machine

variable (s : State)

section up
variable (f : Upstream → Upstream)
@[simp] theorem State.onUp_up : (s.onUp f).up = f s.up := rfl
@[simp] theorem State.onUp_cls : (s.onUp f).cls = s.cls := rfl
@[simp] theorem State.onUp_entries : (s.onUp f).entries = s.entries := rfl
@[simp] theorem State.onUp_filter : (s.onUp f).filter = s.filter := rfl
@[simp] theorem State.onUp_log : (s.onUp f).log = s.log := rfl
@[simp] theorem State.onUp_ckpt : (s.onUp f).ckpt = s.ckpt := rfl
@[simp] theorem State.onUp_restore : (s.onUp f).restore = s.restore := rfl
@[simp] theorem State.onUp_down : (s.onUp f).down = s.down := rfl
@[simp] theorem State.onUp_casc : (s.onUp f).casc = s.casc := rfl
@[simp] theorem State.onUp_mgmt : (s.onUp f).mgmt = s.mgmt := rfl
@[simp] theorem State.onUp_pins : (s.onUp f).pins = s.pins := rfl
@[simp] theorem State.onUp_pending : (s.onUp f).pending = s.pending := rfl
end up

section cls
variable (f : Classifier → Classifier)
@[simp] theorem State.onCls_up : (s.onCls f).up = s.up := rfl
@[simp] theorem State.onCls_cls : (s.onCls f).cls = f s.cls := rfl
@[simp] theorem State.onCls_entries : (s.onCls f).entries = s.entries := rfl
@[simp] theorem State.onCls_filter : (s.onCls f).filter = s.filter := rfl
@[simp] theorem State.onCls_log : (s.onCls f).log = s.log := rfl
@[simp] theorem State.onCls_ckpt : (s.onCls f).ckpt = s.ckpt := rfl
@[simp] theorem State.onCls_restore : (s.onCls f).restore = s.restore := rfl
@[simp] theorem State.onCls_down : (s.onCls f).down = s.down := rfl
@[simp] theorem State.onCls_casc : (s.onCls f).casc = s.casc := rfl
@[simp] theorem State.onCls_mgmt : (s.onCls f).mgmt = s.mgmt := rfl
@[simp] theorem State.onCls_pins : (s.onCls f).pins = s.pins := rfl
@[simp] theorem State.onCls_pending : (s.onCls f).pending = s.pending := rfl
end cls

section entries
variable (f : List Entry → List Entry)
@[simp] theorem State.onEntries_up : (s.onEntries f).up = s.up := rfl
@[simp] theorem State.onEntries_cls : (s.onEntries f).cls = s.cls := rfl
@[simp] theorem State.onEntries_entries : (s.onEntries f).entries = f s.entries := rfl
@[simp] theorem State.onEntries_filter : (s.onEntries f).filter = s.filter := rfl
@[simp] theorem State.onEntries_log : (s.onEntries f).log = s.log := rfl
@[simp] theorem State.onEntries_ckpt : (s.onEntries f).ckpt = s.ckpt := rfl
@[simp] theorem State.onEntries_restore : (s.onEntries f).restore = s.restore := rfl
@[simp] theorem State.onEntries_down : (s.onEntries f).down = s.down := rfl
@[simp] theorem State.onEntries_casc : (s.onEntries f).casc = s.casc := rfl
@[simp] theorem State.onEntries_mgmt : (s.onEntries f).mgmt = s.mgmt := rfl
@[simp] theorem State.onEntries_pins : (s.onEntries f).pins = s.pins := rfl
@[simp] theorem State.onEntries_pending : (s.onEntries f).pending = s.pending := rfl
end entries

section filter
variable (f : List FilterWay → List FilterWay)
@[simp] theorem State.onFilter_up : (s.onFilter f).up = s.up := rfl
@[simp] theorem State.onFilter_cls : (s.onFilter f).cls = s.cls := rfl
@[simp] theorem State.onFilter_entries : (s.onFilter f).entries = s.entries := rfl
@[simp] theorem State.onFilter_filter : (s.onFilter f).filter = f s.filter := rfl
@[simp] theorem State.onFilter_log : (s.onFilter f).log = s.log := rfl
@[simp] theorem State.onFilter_ckpt : (s.onFilter f).ckpt = s.ckpt := rfl
@[simp] theorem State.onFilter_restore : (s.onFilter f).restore = s.restore := rfl
@[simp] theorem State.onFilter_down : (s.onFilter f).down = s.down := rfl
@[simp] theorem State.onFilter_casc : (s.onFilter f).casc = s.casc := rfl
@[simp] theorem State.onFilter_mgmt : (s.onFilter f).mgmt = s.mgmt := rfl
@[simp] theorem State.onFilter_pins : (s.onFilter f).pins = s.pins := rfl
@[simp] theorem State.onFilter_pending : (s.onFilter f).pending = s.pending := rfl
end filter

section log
variable (f : Log → Log)
@[simp] theorem State.onLog_up : (s.onLog f).up = s.up := rfl
@[simp] theorem State.onLog_cls : (s.onLog f).cls = s.cls := rfl
@[simp] theorem State.onLog_entries : (s.onLog f).entries = s.entries := rfl
@[simp] theorem State.onLog_filter : (s.onLog f).filter = s.filter := rfl
@[simp] theorem State.onLog_log : (s.onLog f).log = f s.log := rfl
@[simp] theorem State.onLog_ckpt : (s.onLog f).ckpt = s.ckpt := rfl
@[simp] theorem State.onLog_restore : (s.onLog f).restore = s.restore := rfl
@[simp] theorem State.onLog_down : (s.onLog f).down = s.down := rfl
@[simp] theorem State.onLog_casc : (s.onLog f).casc = s.casc := rfl
@[simp] theorem State.onLog_mgmt : (s.onLog f).mgmt = s.mgmt := rfl
@[simp] theorem State.onLog_pins : (s.onLog f).pins = s.pins := rfl
@[simp] theorem State.onLog_pending : (s.onLog f).pending = s.pending := rfl
end log

section ckpt
variable (f : Controller → Controller)
@[simp] theorem State.onCkpt_up : (s.onCkpt f).up = s.up := rfl
@[simp] theorem State.onCkpt_cls : (s.onCkpt f).cls = s.cls := rfl
@[simp] theorem State.onCkpt_entries : (s.onCkpt f).entries = s.entries := rfl
@[simp] theorem State.onCkpt_filter : (s.onCkpt f).filter = s.filter := rfl
@[simp] theorem State.onCkpt_log : (s.onCkpt f).log = s.log := rfl
@[simp] theorem State.onCkpt_ckpt : (s.onCkpt f).ckpt = f s.ckpt := rfl
@[simp] theorem State.onCkpt_restore : (s.onCkpt f).restore = s.restore := rfl
@[simp] theorem State.onCkpt_down : (s.onCkpt f).down = s.down := rfl
@[simp] theorem State.onCkpt_casc : (s.onCkpt f).casc = s.casc := rfl
@[simp] theorem State.onCkpt_mgmt : (s.onCkpt f).mgmt = s.mgmt := rfl
@[simp] theorem State.onCkpt_pins : (s.onCkpt f).pins = s.pins := rfl
@[simp] theorem State.onCkpt_pending : (s.onCkpt f).pending = s.pending := rfl
end ckpt

section restore
variable (f : Restore → Restore)
@[simp] theorem State.onRestore_up : (s.onRestore f).up = s.up := rfl
@[simp] theorem State.onRestore_cls : (s.onRestore f).cls = s.cls := rfl
@[simp] theorem State.onRestore_entries : (s.onRestore f).entries = s.entries := rfl
@[simp] theorem State.onRestore_filter : (s.onRestore f).filter = s.filter := rfl
@[simp] theorem State.onRestore_log : (s.onRestore f).log = s.log := rfl
@[simp] theorem State.onRestore_ckpt : (s.onRestore f).ckpt = s.ckpt := rfl
@[simp] theorem State.onRestore_restore : (s.onRestore f).restore = f s.restore := rfl
@[simp] theorem State.onRestore_down : (s.onRestore f).down = s.down := rfl
@[simp] theorem State.onRestore_casc : (s.onRestore f).casc = s.casc := rfl
@[simp] theorem State.onRestore_mgmt : (s.onRestore f).mgmt = s.mgmt := rfl
@[simp] theorem State.onRestore_pins : (s.onRestore f).pins = s.pins := rfl
@[simp] theorem State.onRestore_pending : (s.onRestore f).pending = s.pending := rfl
end restore

section down
variable (f : Downstream → Downstream)
@[simp] theorem State.onDown_up : (s.onDown f).up = s.up := rfl
@[simp] theorem State.onDown_cls : (s.onDown f).cls = s.cls := rfl
@[simp] theorem State.onDown_entries : (s.onDown f).entries = s.entries := rfl
@[simp] theorem State.onDown_filter : (s.onDown f).filter = s.filter := rfl
@[simp] theorem State.onDown_log : (s.onDown f).log = s.log := rfl
@[simp] theorem State.onDown_ckpt : (s.onDown f).ckpt = s.ckpt := rfl
@[simp] theorem State.onDown_restore : (s.onDown f).restore = s.restore := rfl
@[simp] theorem State.onDown_down : (s.onDown f).down = f s.down := rfl
@[simp] theorem State.onDown_casc : (s.onDown f).casc = s.casc := rfl
@[simp] theorem State.onDown_mgmt : (s.onDown f).mgmt = s.mgmt := rfl
@[simp] theorem State.onDown_pins : (s.onDown f).pins = s.pins := rfl
@[simp] theorem State.onDown_pending : (s.onDown f).pending = s.pending := rfl
end down

section casc
variable (f : Cascade → Cascade)
@[simp] theorem State.onCasc_up : (s.onCasc f).up = s.up := rfl
@[simp] theorem State.onCasc_cls : (s.onCasc f).cls = s.cls := rfl
@[simp] theorem State.onCasc_entries : (s.onCasc f).entries = s.entries := rfl
@[simp] theorem State.onCasc_filter : (s.onCasc f).filter = s.filter := rfl
@[simp] theorem State.onCasc_log : (s.onCasc f).log = s.log := rfl
@[simp] theorem State.onCasc_ckpt : (s.onCasc f).ckpt = s.ckpt := rfl
@[simp] theorem State.onCasc_restore : (s.onCasc f).restore = s.restore := rfl
@[simp] theorem State.onCasc_down : (s.onCasc f).down = s.down := rfl
@[simp] theorem State.onCasc_casc : (s.onCasc f).casc = f s.casc := rfl
@[simp] theorem State.onCasc_mgmt : (s.onCasc f).mgmt = s.mgmt := rfl
@[simp] theorem State.onCasc_pins : (s.onCasc f).pins = s.pins := rfl
@[simp] theorem State.onCasc_pending : (s.onCasc f).pending = s.pending := rfl
end casc

section mgmt
variable (f : Mgmt → Mgmt)
@[simp] theorem State.onMgmt_up : (s.onMgmt f).up = s.up := rfl
@[simp] theorem State.onMgmt_cls : (s.onMgmt f).cls = s.cls := rfl
@[simp] theorem State.onMgmt_entries : (s.onMgmt f).entries = s.entries := rfl
@[simp] theorem State.onMgmt_filter : (s.onMgmt f).filter = s.filter := rfl
@[simp] theorem State.onMgmt_log : (s.onMgmt f).log = s.log := rfl
@[simp] theorem State.onMgmt_ckpt : (s.onMgmt f).ckpt = s.ckpt := rfl
@[simp] theorem State.onMgmt_restore : (s.onMgmt f).restore = s.restore := rfl
@[simp] theorem State.onMgmt_down : (s.onMgmt f).down = s.down := rfl
@[simp] theorem State.onMgmt_casc : (s.onMgmt f).casc = s.casc := rfl
@[simp] theorem State.onMgmt_mgmt : (s.onMgmt f).mgmt = f s.mgmt := rfl
@[simp] theorem State.onMgmt_pins : (s.onMgmt f).pins = s.pins := rfl
@[simp] theorem State.onMgmt_pending : (s.onMgmt f).pending = s.pending := rfl
end mgmt

section pins
variable (f : Pins → Pins)
@[simp] theorem State.onPins_up : (s.onPins f).up = s.up := rfl
@[simp] theorem State.onPins_cls : (s.onPins f).cls = s.cls := rfl
@[simp] theorem State.onPins_entries : (s.onPins f).entries = s.entries := rfl
@[simp] theorem State.onPins_filter : (s.onPins f).filter = s.filter := rfl
@[simp] theorem State.onPins_log : (s.onPins f).log = s.log := rfl
@[simp] theorem State.onPins_ckpt : (s.onPins f).ckpt = s.ckpt := rfl
@[simp] theorem State.onPins_restore : (s.onPins f).restore = s.restore := rfl
@[simp] theorem State.onPins_down : (s.onPins f).down = s.down := rfl
@[simp] theorem State.onPins_casc : (s.onPins f).casc = s.casc := rfl
@[simp] theorem State.onPins_mgmt : (s.onPins f).mgmt = s.mgmt := rfl
@[simp] theorem State.onPins_pins : (s.onPins f).pins = f s.pins := rfl
@[simp] theorem State.onPins_pending : (s.onPins f).pending = s.pending := rfl
end pins

end Sys2Proof.Machine
end

