-- ==== Sys2Proof/Laws/Frames.lean ====
section
/-! SUPPORT. The frame of each shared operation: the blocks it leaves unchanged, and in a block it
changes the fields it leaves unchanged. -/

namespace Sys2Proof.Machine

/-- A projection that each turn of a fold keeps is kept by the fold. -/
theorem foldl_keeps {α β γ : Type} (p : α → γ) (g : α → β → α) (h : ∀ a b, p (g a b) = p a)
    (l : List β) (a : α) : p (l.foldl g a) = p a := by
  induction l generalizing a with
  | nil => rfl
  | cons x l ih => simp [ih, h]

@[simp] theorem latch_frame (c : AlertCause) (s : State) :
    (latch c s).up = s.up ∧ (latch c s).cls = s.cls ∧ (latch c s).entries = s.entries ∧ (latch c
    s).filter = s.filter ∧ (latch c s).log = s.log ∧ (latch c s).ckpt = s.ckpt ∧ (latch c
    s).restore = s.restore ∧ (latch c s).down = s.down ∧ (latch c s).casc = s.casc ∧ (latch c
    s).mgmt.decoder = s.mgmt.decoder ∧ (latch c s).mgmt.mcsLow = s.mgmt.mcsLow ∧ (latch c
    s).mgmt.warmPending = s.mgmt.warmPending ∧ (latch c s).mgmt.response = s.mgmt.response ∧
    (latch c s).mgmt.mask = s.mgmt.mask ∧ (latch c s).mgmt.counters = s.mgmt.counters ∧ (latch c
    s).mgmt.result = s.mgmt.result ∧ (latch c s).pins = s.pins ∧ (latch c s).pending = s.pending := by
  simp [latch]

@[simp] theorem latchIf_frame (b : Bool) (c : AlertCause) (s : State) :
    (latchIf b c s).up = s.up ∧ (latchIf b c s).cls = s.cls ∧ (latchIf b c s).entries = s.entries
    ∧ (latchIf b c s).filter = s.filter ∧ (latchIf b c s).log = s.log ∧ (latchIf b c s).ckpt =
    s.ckpt ∧ (latchIf b c s).restore = s.restore ∧ (latchIf b c s).down = s.down ∧ (latchIf b c
    s).casc = s.casc ∧ (latchIf b c s).mgmt.decoder = s.mgmt.decoder ∧ (latchIf b c s).mgmt.mcsLow
    = s.mgmt.mcsLow ∧ (latchIf b c s).mgmt.warmPending = s.mgmt.warmPending ∧ (latchIf b c
    s).mgmt.response = s.mgmt.response ∧ (latchIf b c s).mgmt.mask = s.mgmt.mask ∧ (latchIf b c
    s).mgmt.counters = s.mgmt.counters ∧ (latchIf b c s).mgmt.result = s.mgmt.result ∧ (latchIf b
    c s).pins = s.pins ∧ (latchIf b c s).pending = s.pending := by
  unfold latchIf; (repeat' split) <;> simp

@[simp] theorem onCounters_frame (f : Counters → Counters) (s : State) :
    (onCounters f s).up = s.up ∧ (onCounters f s).cls = s.cls ∧ (onCounters f s).entries =
    s.entries ∧ (onCounters f s).filter = s.filter ∧ (onCounters f s).log = s.log ∧ (onCounters f
    s).ckpt = s.ckpt ∧ (onCounters f s).restore = s.restore ∧ (onCounters f s).down = s.down ∧
    (onCounters f s).casc = s.casc ∧ (onCounters f s).mgmt.decoder = s.mgmt.decoder ∧ (onCounters
    f s).mgmt.mcsLow = s.mgmt.mcsLow ∧ (onCounters f s).mgmt.warmPending = s.mgmt.warmPending ∧
    (onCounters f s).mgmt.response = s.mgmt.response ∧ (onCounters f s).mgmt.latches =
    s.mgmt.latches ∧ (onCounters f s).mgmt.mask = s.mgmt.mask ∧ (onCounters f s).mgmt.result =
    s.mgmt.result ∧ (onCounters f s).pins = s.pins ∧ (onCounters f s).pending = s.pending := by
  simp [onCounters]

@[simp] theorem countProtectedWrite_frame (s : State) :
    (countProtectedWrite s).up = s.up ∧ (countProtectedWrite s).cls = s.cls ∧ (countProtectedWrite
    s).entries = s.entries ∧ (countProtectedWrite s).filter = s.filter ∧ (countProtectedWrite
    s).log = s.log ∧ (countProtectedWrite s).ckpt = s.ckpt ∧ (countProtectedWrite s).restore =
    s.restore ∧ (countProtectedWrite s).down = s.down ∧ (countProtectedWrite s).casc = s.casc ∧
    (countProtectedWrite s).mgmt.decoder = s.mgmt.decoder ∧ (countProtectedWrite s).mgmt.mcsLow =
    s.mgmt.mcsLow ∧ (countProtectedWrite s).mgmt.warmPending = s.mgmt.warmPending ∧
    (countProtectedWrite s).mgmt.response = s.mgmt.response ∧ (countProtectedWrite s).mgmt.latches
    = s.mgmt.latches ∧ (countProtectedWrite s).mgmt.mask = s.mgmt.mask ∧ (countProtectedWrite
    s).mgmt.result = s.mgmt.result ∧ (countProtectedWrite s).pins = s.pins ∧ (countProtectedWrite
    s).pending = s.pending := by
  simp [countProtectedWrite]

@[simp] theorem countFilterHit_frame (s : State) :
    (countFilterHit s).up = s.up ∧ (countFilterHit s).cls = s.cls ∧ (countFilterHit s).entries =
    s.entries ∧ (countFilterHit s).filter = s.filter ∧ (countFilterHit s).log = s.log ∧
    (countFilterHit s).ckpt = s.ckpt ∧ (countFilterHit s).restore = s.restore ∧ (countFilterHit
    s).down = s.down ∧ (countFilterHit s).casc = s.casc ∧ (countFilterHit s).mgmt.decoder =
    s.mgmt.decoder ∧ (countFilterHit s).mgmt.mcsLow = s.mgmt.mcsLow ∧ (countFilterHit
    s).mgmt.warmPending = s.mgmt.warmPending ∧ (countFilterHit s).mgmt.response = s.mgmt.response
    ∧ (countFilterHit s).mgmt.latches = s.mgmt.latches ∧ (countFilterHit s).mgmt.mask =
    s.mgmt.mask ∧ (countFilterHit s).mgmt.result = s.mgmt.result ∧ (countFilterHit s).pins =
    s.pins ∧ (countFilterHit s).pending = s.pending := by
  simp [countFilterHit]

@[simp] theorem countRecordWritten_frame (s : State) :
    (countRecordWritten s).up = s.up ∧ (countRecordWritten s).cls = s.cls ∧ (countRecordWritten
    s).entries = s.entries ∧ (countRecordWritten s).filter = s.filter ∧ (countRecordWritten s).log
    = s.log ∧ (countRecordWritten s).ckpt = s.ckpt ∧ (countRecordWritten s).restore = s.restore ∧
    (countRecordWritten s).down = s.down ∧ (countRecordWritten s).casc = s.casc ∧
    (countRecordWritten s).mgmt.decoder = s.mgmt.decoder ∧ (countRecordWritten s).mgmt.mcsLow =
    s.mgmt.mcsLow ∧ (countRecordWritten s).mgmt.warmPending = s.mgmt.warmPending ∧
    (countRecordWritten s).mgmt.response = s.mgmt.response ∧ (countRecordWritten s).mgmt.latches =
    s.mgmt.latches ∧ (countRecordWritten s).mgmt.mask = s.mgmt.mask ∧ (countRecordWritten
    s).mgmt.result = s.mgmt.result ∧ (countRecordWritten s).pins = s.pins ∧ (countRecordWritten
    s).pending = s.pending := by
  simp [countRecordWritten]

@[simp] theorem countDisplacement_frame (s : State) :
    (countDisplacement s).up = s.up ∧ (countDisplacement s).cls = s.cls ∧ (countDisplacement
    s).entries = s.entries ∧ (countDisplacement s).filter = s.filter ∧ (countDisplacement s).log =
    s.log ∧ (countDisplacement s).ckpt = s.ckpt ∧ (countDisplacement s).restore = s.restore ∧
    (countDisplacement s).down = s.down ∧ (countDisplacement s).casc = s.casc ∧ (countDisplacement
    s).mgmt.decoder = s.mgmt.decoder ∧ (countDisplacement s).mgmt.mcsLow = s.mgmt.mcsLow ∧
    (countDisplacement s).mgmt.warmPending = s.mgmt.warmPending ∧ (countDisplacement
    s).mgmt.response = s.mgmt.response ∧ (countDisplacement s).mgmt.latches = s.mgmt.latches ∧
    (countDisplacement s).mgmt.mask = s.mgmt.mask ∧ (countDisplacement s).mgmt.result =
    s.mgmt.result ∧ (countDisplacement s).pins = s.pins ∧ (countDisplacement s).pending =
    s.pending := by
  simp [countDisplacement]

@[simp] theorem countDeferral_frame (s : State) :
    (countDeferral s).up = s.up ∧ (countDeferral s).cls = s.cls ∧ (countDeferral s).entries =
    s.entries ∧ (countDeferral s).filter = s.filter ∧ (countDeferral s).log = s.log ∧
    (countDeferral s).ckpt = s.ckpt ∧ (countDeferral s).restore = s.restore ∧ (countDeferral
    s).down = s.down ∧ (countDeferral s).casc = s.casc ∧ (countDeferral s).mgmt.decoder =
    s.mgmt.decoder ∧ (countDeferral s).mgmt.mcsLow = s.mgmt.mcsLow ∧ (countDeferral
    s).mgmt.warmPending = s.mgmt.warmPending ∧ (countDeferral s).mgmt.response = s.mgmt.response ∧
    (countDeferral s).mgmt.latches = s.mgmt.latches ∧ (countDeferral s).mgmt.mask = s.mgmt.mask ∧
    (countDeferral s).mgmt.result = s.mgmt.result ∧ (countDeferral s).pins = s.pins ∧
    (countDeferral s).pending = s.pending := by
  simp [countDeferral]

@[simp] theorem countStallTime_frame (n : Nat) (s : State) :
    (countStallTime n s).up = s.up ∧ (countStallTime n s).cls = s.cls ∧ (countStallTime n
    s).entries = s.entries ∧ (countStallTime n s).filter = s.filter ∧ (countStallTime n s).log =
    s.log ∧ (countStallTime n s).ckpt = s.ckpt ∧ (countStallTime n s).restore = s.restore ∧
    (countStallTime n s).down = s.down ∧ (countStallTime n s).casc = s.casc ∧ (countStallTime n
    s).mgmt.decoder = s.mgmt.decoder ∧ (countStallTime n s).mgmt.mcsLow = s.mgmt.mcsLow ∧
    (countStallTime n s).mgmt.warmPending = s.mgmt.warmPending ∧ (countStallTime n
    s).mgmt.response = s.mgmt.response ∧ (countStallTime n s).mgmt.latches = s.mgmt.latches ∧
    (countStallTime n s).mgmt.mask = s.mgmt.mask ∧ (countStallTime n s).mgmt.result =
    s.mgmt.result ∧ (countStallTime n s).pins = s.pins ∧ (countStallTime n s).pending = s.pending := by
  simp [countStallTime]

@[simp] theorem countMerged_frame (n : Nat) (s : State) :
    (countMerged n s).up = s.up ∧ (countMerged n s).cls = s.cls ∧ (countMerged n s).entries =
    s.entries ∧ (countMerged n s).filter = s.filter ∧ (countMerged n s).log = s.log ∧ (countMerged
    n s).ckpt = s.ckpt ∧ (countMerged n s).restore = s.restore ∧ (countMerged n s).down = s.down ∧
    (countMerged n s).casc = s.casc ∧ (countMerged n s).mgmt.decoder = s.mgmt.decoder ∧
    (countMerged n s).mgmt.mcsLow = s.mgmt.mcsLow ∧ (countMerged n s).mgmt.warmPending =
    s.mgmt.warmPending ∧ (countMerged n s).mgmt.response = s.mgmt.response ∧ (countMerged n
    s).mgmt.latches = s.mgmt.latches ∧ (countMerged n s).mgmt.mask = s.mgmt.mask ∧ (countMerged n
    s).mgmt.result = s.mgmt.result ∧ (countMerged n s).pins = s.pins ∧ (countMerged n s).pending =
    s.pending := by
  simp [countMerged]

@[simp] theorem countTimeout_frame (s : State) :
    (countTimeout s).up = s.up ∧ (countTimeout s).cls = s.cls ∧ (countTimeout s).entries =
    s.entries ∧ (countTimeout s).filter = s.filter ∧ (countTimeout s).log = s.log ∧ (countTimeout
    s).ckpt = s.ckpt ∧ (countTimeout s).restore = s.restore ∧ (countTimeout s).down = s.down ∧
    (countTimeout s).casc = s.casc ∧ (countTimeout s).mgmt.decoder = s.mgmt.decoder ∧
    (countTimeout s).mgmt.mcsLow = s.mgmt.mcsLow ∧ (countTimeout s).mgmt.warmPending =
    s.mgmt.warmPending ∧ (countTimeout s).mgmt.response = s.mgmt.response ∧ (countTimeout
    s).mgmt.latches = s.mgmt.latches ∧ (countTimeout s).mgmt.mask = s.mgmt.mask ∧ (countTimeout
    s).mgmt.result = s.mgmt.result ∧ (countTimeout s).pins = s.pins ∧ (countTimeout s).pending =
    s.pending := by
  simp [countTimeout]

@[simp] theorem modEntry_frame (n : Fin 32) (f : Entry → Entry) (s : State) :
    (modEntry n f s).up = s.up ∧ (modEntry n f s).cls = s.cls ∧ (modEntry n f s).filter = s.filter
    ∧ (modEntry n f s).log = s.log ∧ (modEntry n f s).ckpt = s.ckpt ∧ (modEntry n f s).restore =
    s.restore ∧ (modEntry n f s).down = s.down ∧ (modEntry n f s).casc = s.casc ∧ (modEntry n f
    s).mgmt = s.mgmt ∧ (modEntry n f s).pins = s.pins ∧ (modEntry n f s).pending = s.pending := by
  simp [modEntry]

@[simp] theorem modCtx_frame (n : Fin 32) (f : RecordCtx → RecordCtx) (s : State) :
    (modCtx n f s).up = s.up ∧ (modCtx n f s).cls = s.cls ∧ (modCtx n f s).filter = s.filter ∧
    (modCtx n f s).log = s.log ∧ (modCtx n f s).ckpt = s.ckpt ∧ (modCtx n f s).restore = s.restore
    ∧ (modCtx n f s).down = s.down ∧ (modCtx n f s).casc = s.casc ∧ (modCtx n f s).mgmt = s.mgmt ∧
    (modCtx n f s).pins = s.pins ∧ (modCtx n f s).pending = s.pending := by
  simp [modCtx]

@[simp] theorem setDone_frame (n : Fin 32) (st : UpStatus) (s : State) :
    (setDone n st s).up = s.up ∧ (setDone n st s).cls = s.cls ∧ (setDone n st s).filter = s.filter
    ∧ (setDone n st s).log = s.log ∧ (setDone n st s).ckpt = s.ckpt ∧ (setDone n st s).restore =
    s.restore ∧ (setDone n st s).down = s.down ∧ (setDone n st s).casc = s.casc ∧ (setDone n st
    s).mgmt = s.mgmt ∧ (setDone n st s).pins = s.pins ∧ (setDone n st s).pending = s.pending := by
  simp [setDone]

@[simp] theorem pushHost_frame (r : DownReq) (s : State) :
    (pushHost r s).up = s.up ∧ (pushHost r s).cls = s.cls ∧ (pushHost r s).entries = s.entries ∧
    (pushHost r s).filter = s.filter ∧ (pushHost r s).log = s.log ∧ (pushHost r s).ckpt = s.ckpt ∧
    (pushHost r s).restore = s.restore ∧ (pushHost r s).down.preserveReady = s.down.preserveReady
    ∧ (pushHost r s).down.restoreReady = s.down.restoreReady ∧ (pushHost r s).down.tags =
    s.down.tags ∧ (pushHost r s).down.channel = s.down.channel ∧ (pushHost r s).down.turn =
    s.down.turn ∧ (pushHost r s).down.used = s.down.used ∧ (pushHost r s).down.limit =
    s.down.limit ∧ (pushHost r s).down.wHost = s.down.wHost ∧ (pushHost r s).down.wPreserve =
    s.down.wPreserve ∧ (pushHost r s).down.wRestore = s.down.wRestore ∧ (pushHost r
    s).down.timeout = s.down.timeout ∧ (pushHost r s).casc = s.casc ∧ (pushHost r s).mgmt = s.mgmt
    ∧ (pushHost r s).pins = s.pins ∧ (pushHost r s).pending = s.pending := by
  simp [pushHost]

@[simp] theorem pushPreserve_frame (r : DownReq) (s : State) :
    (pushPreserve r s).up = s.up ∧ (pushPreserve r s).cls = s.cls ∧ (pushPreserve r s).entries =
    s.entries ∧ (pushPreserve r s).filter = s.filter ∧ (pushPreserve r s).log = s.log ∧
    (pushPreserve r s).ckpt = s.ckpt ∧ (pushPreserve r s).restore = s.restore ∧ (pushPreserve r
    s).down.hostReady = s.down.hostReady ∧ (pushPreserve r s).down.restoreReady =
    s.down.restoreReady ∧ (pushPreserve r s).down.tags = s.down.tags ∧ (pushPreserve r
    s).down.channel = s.down.channel ∧ (pushPreserve r s).down.turn = s.down.turn ∧ (pushPreserve
    r s).down.used = s.down.used ∧ (pushPreserve r s).down.limit = s.down.limit ∧ (pushPreserve r
    s).down.wHost = s.down.wHost ∧ (pushPreserve r s).down.wPreserve = s.down.wPreserve ∧
    (pushPreserve r s).down.wRestore = s.down.wRestore ∧ (pushPreserve r s).down.timeout =
    s.down.timeout ∧ (pushPreserve r s).casc = s.casc ∧ (pushPreserve r s).mgmt = s.mgmt ∧
    (pushPreserve r s).pins = s.pins ∧ (pushPreserve r s).pending = s.pending := by
  simp [pushPreserve]

@[simp] theorem pushRestore_frame (r : DownReq) (s : State) :
    (pushRestore r s).up = s.up ∧ (pushRestore r s).cls = s.cls ∧ (pushRestore r s).entries =
    s.entries ∧ (pushRestore r s).filter = s.filter ∧ (pushRestore r s).log = s.log ∧ (pushRestore
    r s).ckpt = s.ckpt ∧ (pushRestore r s).restore = s.restore ∧ (pushRestore r s).down.hostReady
    = s.down.hostReady ∧ (pushRestore r s).down.preserveReady = s.down.preserveReady ∧
    (pushRestore r s).down.tags = s.down.tags ∧ (pushRestore r s).down.channel = s.down.channel ∧
    (pushRestore r s).down.turn = s.down.turn ∧ (pushRestore r s).down.used = s.down.used ∧
    (pushRestore r s).down.limit = s.down.limit ∧ (pushRestore r s).down.wHost = s.down.wHost ∧
    (pushRestore r s).down.wPreserve = s.down.wPreserve ∧ (pushRestore r s).down.wRestore =
    s.down.wRestore ∧ (pushRestore r s).down.timeout = s.down.timeout ∧ (pushRestore r s).casc =
    s.casc ∧ (pushRestore r s).mgmt = s.mgmt ∧ (pushRestore r s).pins = s.pins ∧ (pushRestore r
    s).pending = s.pending := by
  simp [pushRestore]

@[simp] theorem issue_frame (n : Fin 32) (s : State) :
    (issue n s).up = s.up ∧ (issue n s).cls = s.cls ∧ (issue n s).filter = s.filter ∧ (issue n
    s).log = s.log ∧ (issue n s).ckpt = s.ckpt ∧ (issue n s).restore = s.restore ∧ (issue n
    s).down.preserveReady = s.down.preserveReady ∧ (issue n s).down.restoreReady =
    s.down.restoreReady ∧ (issue n s).down.tags = s.down.tags ∧ (issue n s).down.channel =
    s.down.channel ∧ (issue n s).down.turn = s.down.turn ∧ (issue n s).down.used = s.down.used ∧
    (issue n s).down.limit = s.down.limit ∧ (issue n s).down.wHost = s.down.wHost ∧ (issue n
    s).down.wPreserve = s.down.wPreserve ∧ (issue n s).down.wRestore = s.down.wRestore ∧ (issue n
    s).down.timeout = s.down.timeout ∧ (issue n s).casc = s.casc ∧ (issue n s).mgmt = s.mgmt ∧
    (issue n s).pins = s.pins ∧ (issue n s).pending = s.pending := by
  unfold issue; (repeat' split) <;> simp

@[simp] theorem filterInsert_frame (line : Nat) (s : State) :
    (filterInsert line s).up = s.up ∧ (filterInsert line s).cls = s.cls ∧ (filterInsert line
    s).entries = s.entries ∧ (filterInsert line s).log = s.log ∧ (filterInsert line s).ckpt =
    s.ckpt ∧ (filterInsert line s).restore = s.restore ∧ (filterInsert line s).down = s.down ∧
    (filterInsert line s).casc = s.casc ∧ (filterInsert line s).mgmt.decoder = s.mgmt.decoder ∧
    (filterInsert line s).mgmt.mcsLow = s.mgmt.mcsLow ∧ (filterInsert line s).mgmt.warmPending =
    s.mgmt.warmPending ∧ (filterInsert line s).mgmt.response = s.mgmt.response ∧ (filterInsert
    line s).mgmt.latches = s.mgmt.latches ∧ (filterInsert line s).mgmt.mask = s.mgmt.mask ∧
    (filterInsert line s).mgmt.result = s.mgmt.result ∧ (filterInsert line s).pins = s.pins ∧
    (filterInsert line s).pending = s.pending := by
  unfold filterInsert; dsimp only; (repeat' split) <;> simp

@[simp] theorem reserve_frame (n : Fin 32) (s : State) :
    (reserve n s).up = s.up ∧ (reserve n s).cls = s.cls ∧ (reserve n s).filter = s.filter ∧
    (reserve n s).log.configured = s.log.configured ∧ (reserve n s).log.base = s.log.base ∧
    (reserve n s).log.capacity = s.log.capacity ∧ (reserve n s).log.policy = s.log.policy ∧
    (reserve n s).log.stallLimit = s.log.stallLimit ∧ (reserve n s).log.watermark =
    s.log.watermark ∧ (reserve n s).log.tail = s.log.tail ∧ (reserve n s).log.head = s.log.head ∧
    (reserve n s).log.finished = s.log.finished ∧ (reserve n s).log.waitList = s.log.waitList ∧
    (reserve n s).log.stallClock = s.log.stallClock ∧ (reserve n s).ckpt = s.ckpt ∧ (reserve n
    s).restore = s.restore ∧ (reserve n s).down.hostReady = s.down.hostReady ∧ (reserve n
    s).down.restoreReady = s.down.restoreReady ∧ (reserve n s).down.tags = s.down.tags ∧ (reserve
    n s).down.channel = s.down.channel ∧ (reserve n s).down.turn = s.down.turn ∧ (reserve n
    s).down.used = s.down.used ∧ (reserve n s).down.limit = s.down.limit ∧ (reserve n
    s).down.wHost = s.down.wHost ∧ (reserve n s).down.wPreserve = s.down.wPreserve ∧ (reserve n
    s).down.wRestore = s.down.wRestore ∧ (reserve n s).down.timeout = s.down.timeout ∧ (reserve n
    s).casc = s.casc ∧ (reserve n s).mgmt.decoder = s.mgmt.decoder ∧ (reserve n s).mgmt.mcsLow =
    s.mgmt.mcsLow ∧ (reserve n s).mgmt.warmPending = s.mgmt.warmPending ∧ (reserve n
    s).mgmt.response = s.mgmt.response ∧ (reserve n s).mgmt.mask = s.mgmt.mask ∧ (reserve n
    s).mgmt.counters = s.mgmt.counters ∧ (reserve n s).mgmt.result = s.mgmt.result ∧ (reserve n
    s).pins = s.pins ∧ (reserve n s).pending = s.pending := by
  unfold reserve; dsimp only; (repeat' split) <;> simp

@[simp] theorem joinWaitList_frame (n : Fin 32) (s : State) :
    (joinWaitList n s).up = s.up ∧ (joinWaitList n s).cls = s.cls ∧ (joinWaitList n s).filter =
    s.filter ∧ (joinWaitList n s).log.configured = s.log.configured ∧ (joinWaitList n s).log.base
    = s.log.base ∧ (joinWaitList n s).log.capacity = s.log.capacity ∧ (joinWaitList n
    s).log.policy = s.log.policy ∧ (joinWaitList n s).log.stallLimit = s.log.stallLimit ∧
    (joinWaitList n s).log.watermark = s.log.watermark ∧ (joinWaitList n s).log.tail = s.log.tail
    ∧ (joinWaitList n s).log.head = s.log.head ∧ (joinWaitList n s).log.allocated =
    s.log.allocated ∧ (joinWaitList n s).log.finished = s.log.finished ∧ (joinWaitList n s).ckpt =
    s.ckpt ∧ (joinWaitList n s).restore = s.restore ∧ (joinWaitList n s).down = s.down ∧
    (joinWaitList n s).casc = s.casc ∧ (joinWaitList n s).mgmt.decoder = s.mgmt.decoder ∧
    (joinWaitList n s).mgmt.mcsLow = s.mgmt.mcsLow ∧ (joinWaitList n s).mgmt.warmPending =
    s.mgmt.warmPending ∧ (joinWaitList n s).mgmt.response = s.mgmt.response ∧ (joinWaitList n
    s).mgmt.mask = s.mgmt.mask ∧ (joinWaitList n s).mgmt.counters = s.mgmt.counters ∧
    (joinWaitList n s).mgmt.result = s.mgmt.result ∧ (joinWaitList n s).pins = s.pins ∧
    (joinWaitList n s).pending = s.pending := by
  unfold joinWaitList; dsimp only; (repeat' split) <;> simp

@[simp] theorem issueWaiting_frame (s : State) :
    (issueWaiting s).up = s.up ∧ (issueWaiting s).cls = s.cls ∧ (issueWaiting s).filter = s.filter
    ∧ (issueWaiting s).log.configured = s.log.configured ∧ (issueWaiting s).log.base = s.log.base
    ∧ (issueWaiting s).log.capacity = s.log.capacity ∧ (issueWaiting s).log.policy = s.log.policy
    ∧ (issueWaiting s).log.stallLimit = s.log.stallLimit ∧ (issueWaiting s).log.watermark =
    s.log.watermark ∧ (issueWaiting s).log.tail = s.log.tail ∧ (issueWaiting s).log.head =
    s.log.head ∧ (issueWaiting s).log.allocated = s.log.allocated ∧ (issueWaiting s).log.finished
    = s.log.finished ∧ (issueWaiting s).ckpt = s.ckpt ∧ (issueWaiting s).restore = s.restore ∧
    (issueWaiting s).down.preserveReady = s.down.preserveReady ∧ (issueWaiting
    s).down.restoreReady = s.down.restoreReady ∧ (issueWaiting s).down.tags = s.down.tags ∧
    (issueWaiting s).down.channel = s.down.channel ∧ (issueWaiting s).down.turn = s.down.turn ∧
    (issueWaiting s).down.used = s.down.used ∧ (issueWaiting s).down.limit = s.down.limit ∧
    (issueWaiting s).down.wHost = s.down.wHost ∧ (issueWaiting s).down.wPreserve =
    s.down.wPreserve ∧ (issueWaiting s).down.wRestore = s.down.wRestore ∧ (issueWaiting
    s).down.timeout = s.down.timeout ∧ (issueWaiting s).casc = s.casc ∧ (issueWaiting s).mgmt =
    s.mgmt ∧ (issueWaiting s).pins = s.pins ∧ (issueWaiting s).pending = s.pending := by
  have key {γ : Type} (p : State → γ) (h : ∀ s n, p ((fun s n => issue n s) s n) = p s) (a : State) :
      p (s.log.waitList.foldl (fun s n => issue n s) a) = p a :=
    foldl_keeps p _ h _ a
  unfold issueWaiting
  simp [key (fun s => s.up) (by simp), key (fun s => s.cls) (by simp), key (fun s => s.filter) (by simp), key (fun s => s.log.configured) (by simp), key (fun s => s.log.base) (by simp), key (fun s => s.log.capacity) (by simp), key (fun s => s.log.policy) (by simp), key (fun s => s.log.stallLimit) (by simp), key (fun s => s.log.watermark) (by simp), key (fun s => s.log.tail) (by simp), key (fun s => s.log.head) (by simp), key (fun s => s.log.allocated) (by simp), key (fun s => s.log.finished) (by simp), key (fun s => s.ckpt) (by simp), key (fun s => s.restore) (by simp), key (fun s => s.down.preserveReady) (by simp), key (fun s => s.down.restoreReady) (by simp), key (fun s => s.down.tags) (by simp), key (fun s => s.down.channel) (by simp), key (fun s => s.down.turn) (by simp), key (fun s => s.down.used) (by simp), key (fun s => s.down.limit) (by simp), key (fun s => s.down.wHost) (by simp), key (fun s => s.down.wPreserve) (by simp), key (fun s => s.down.wRestore) (by simp), key (fun s => s.down.timeout) (by simp), key (fun s => s.casc) (by simp), key (fun s => s.mgmt) (by simp), key (fun s => s.pins) (by simp), key (fun s => s.pending) (by simp)]

@[simp] theorem reserveWaiting_frame (k : Nat) (s : State) :
    (reserveWaiting k s).up = s.up ∧ (reserveWaiting k s).cls = s.cls ∧ (reserveWaiting k
    s).filter = s.filter ∧ (reserveWaiting k s).log.configured = s.log.configured ∧
    (reserveWaiting k s).log.base = s.log.base ∧ (reserveWaiting k s).log.capacity =
    s.log.capacity ∧ (reserveWaiting k s).log.policy = s.log.policy ∧ (reserveWaiting k
    s).log.stallLimit = s.log.stallLimit ∧ (reserveWaiting k s).log.watermark = s.log.watermark ∧
    (reserveWaiting k s).log.tail = s.log.tail ∧ (reserveWaiting k s).log.head = s.log.head ∧
    (reserveWaiting k s).log.finished = s.log.finished ∧ (reserveWaiting k s).log.stallClock =
    s.log.stallClock ∧ (reserveWaiting k s).ckpt = s.ckpt ∧ (reserveWaiting k s).restore =
    s.restore ∧ (reserveWaiting k s).down.hostReady = s.down.hostReady ∧ (reserveWaiting k
    s).down.restoreReady = s.down.restoreReady ∧ (reserveWaiting k s).down.tags = s.down.tags ∧
    (reserveWaiting k s).down.channel = s.down.channel ∧ (reserveWaiting k s).down.turn =
    s.down.turn ∧ (reserveWaiting k s).down.used = s.down.used ∧ (reserveWaiting k s).down.limit =
    s.down.limit ∧ (reserveWaiting k s).down.wHost = s.down.wHost ∧ (reserveWaiting k
    s).down.wPreserve = s.down.wPreserve ∧ (reserveWaiting k s).down.wRestore = s.down.wRestore ∧
    (reserveWaiting k s).down.timeout = s.down.timeout ∧ (reserveWaiting k s).casc = s.casc ∧
    (reserveWaiting k s).mgmt.decoder = s.mgmt.decoder ∧ (reserveWaiting k s).mgmt.mcsLow =
    s.mgmt.mcsLow ∧ (reserveWaiting k s).mgmt.warmPending = s.mgmt.warmPending ∧ (reserveWaiting k
    s).mgmt.response = s.mgmt.response ∧ (reserveWaiting k s).mgmt.mask = s.mgmt.mask ∧
    (reserveWaiting k s).mgmt.counters = s.mgmt.counters ∧ (reserveWaiting k s).mgmt.result =
    s.mgmt.result ∧ (reserveWaiting k s).pins = s.pins ∧ (reserveWaiting k s).pending = s.pending := by
  induction k generalizing s with
  | zero => simp [reserveWaiting]
  | succ k ih => unfold reserveWaiting; (repeat' split) <;> simp [ih]

@[simp] theorem stopClockIfEmpty_frame (s : State) :
    (stopClockIfEmpty s).up = s.up ∧ (stopClockIfEmpty s).cls = s.cls ∧ (stopClockIfEmpty
    s).entries = s.entries ∧ (stopClockIfEmpty s).filter = s.filter ∧ (stopClockIfEmpty
    s).log.configured = s.log.configured ∧ (stopClockIfEmpty s).log.base = s.log.base ∧
    (stopClockIfEmpty s).log.capacity = s.log.capacity ∧ (stopClockIfEmpty s).log.policy =
    s.log.policy ∧ (stopClockIfEmpty s).log.stallLimit = s.log.stallLimit ∧ (stopClockIfEmpty
    s).log.watermark = s.log.watermark ∧ (stopClockIfEmpty s).log.tail = s.log.tail ∧
    (stopClockIfEmpty s).log.head = s.log.head ∧ (stopClockIfEmpty s).log.allocated =
    s.log.allocated ∧ (stopClockIfEmpty s).log.finished = s.log.finished ∧ (stopClockIfEmpty
    s).log.waitList = s.log.waitList ∧ (stopClockIfEmpty s).ckpt = s.ckpt ∧ (stopClockIfEmpty
    s).restore = s.restore ∧ (stopClockIfEmpty s).down = s.down ∧ (stopClockIfEmpty s).casc =
    s.casc ∧ (stopClockIfEmpty s).mgmt = s.mgmt ∧ (stopClockIfEmpty s).pins = s.pins ∧
    (stopClockIfEmpty s).pending = s.pending := by
  unfold stopClockIfEmpty; simp

@[simp] theorem serveWaitList_frame (s : State) :
    (serveWaitList s).up = s.up ∧ (serveWaitList s).cls = s.cls ∧ (serveWaitList s).filter =
    s.filter ∧ (serveWaitList s).log.configured = s.log.configured ∧ (serveWaitList s).log.base =
    s.log.base ∧ (serveWaitList s).log.capacity = s.log.capacity ∧ (serveWaitList s).log.policy =
    s.log.policy ∧ (serveWaitList s).log.stallLimit = s.log.stallLimit ∧ (serveWaitList
    s).log.watermark = s.log.watermark ∧ (serveWaitList s).log.tail = s.log.tail ∧ (serveWaitList
    s).log.head = s.log.head ∧ (serveWaitList s).log.finished = s.log.finished ∧ (serveWaitList
    s).ckpt = s.ckpt ∧ (serveWaitList s).restore = s.restore ∧ (serveWaitList s).down.restoreReady
    = s.down.restoreReady ∧ (serveWaitList s).down.tags = s.down.tags ∧ (serveWaitList
    s).down.channel = s.down.channel ∧ (serveWaitList s).down.turn = s.down.turn ∧ (serveWaitList
    s).down.used = s.down.used ∧ (serveWaitList s).down.limit = s.down.limit ∧ (serveWaitList
    s).down.wHost = s.down.wHost ∧ (serveWaitList s).down.wPreserve = s.down.wPreserve ∧
    (serveWaitList s).down.wRestore = s.down.wRestore ∧ (serveWaitList s).down.timeout =
    s.down.timeout ∧ (serveWaitList s).casc = s.casc ∧ (serveWaitList s).mgmt.decoder =
    s.mgmt.decoder ∧ (serveWaitList s).mgmt.mcsLow = s.mgmt.mcsLow ∧ (serveWaitList
    s).mgmt.warmPending = s.mgmt.warmPending ∧ (serveWaitList s).mgmt.response = s.mgmt.response ∧
    (serveWaitList s).mgmt.mask = s.mgmt.mask ∧ (serveWaitList s).mgmt.counters = s.mgmt.counters
    ∧ (serveWaitList s).mgmt.result = s.mgmt.result ∧ (serveWaitList s).pins = s.pins ∧
    (serveWaitList s).pending = s.pending := by
  unfold serveWaitList; (repeat' split) <;> simp

@[simp] theorem markBroken_frame (s : State) :
    (markBroken s).up = s.up ∧ (markBroken s).cls = s.cls ∧ (markBroken s).entries = s.entries ∧
    (markBroken s).filter = s.filter ∧ (markBroken s).log = s.log ∧ (markBroken s).ckpt.nextNumber
    = s.ckpt.nextNumber ∧ (markBroken s).ckpt.generation = s.ckpt.generation ∧ (markBroken
    s).ckpt.fence = s.ckpt.fence ∧ (markBroken s).ckpt.ctrl = s.ckpt.ctrl ∧ (markBroken
    s).ckpt.lineFlag = s.ckpt.lineFlag ∧ (markBroken s).ckpt.timerFlag = s.ckpt.timerFlag ∧
    (markBroken s).ckpt.cascadeFlag = s.ckpt.cascadeFlag ∧ (markBroken s).ckpt.lineEnable =
    s.ckpt.lineEnable ∧ (markBroken s).ckpt.autoTake = s.ckpt.autoTake ∧ (markBroken
    s).ckpt.rolling = s.ckpt.rolling ∧ (markBroken s).ckpt.interval = s.ckpt.interval ∧
    (markBroken s).ckpt.intervalCount = s.ckpt.intervalCount ∧ (markBroken s).ckpt.intervalMicros
    = s.ckpt.intervalMicros ∧ (markBroken s).ckpt.ckptLevel = s.ckpt.ckptLevel ∧ (markBroken
    s).restore = s.restore ∧ (markBroken s).down = s.down ∧ (markBroken s).casc = s.casc ∧
    (markBroken s).mgmt = s.mgmt ∧ (markBroken s).pins = s.pins ∧ (markBroken s).pending =
    s.pending := by
  simp [markBroken]

@[simp] theorem breakAll_frame (s : State) :
    (breakAll s).up = s.up ∧ (breakAll s).cls = s.cls ∧ (breakAll s).filter = s.filter ∧ (breakAll
    s).log.configured = s.log.configured ∧ (breakAll s).log.base = s.log.base ∧ (breakAll
    s).log.capacity = s.log.capacity ∧ (breakAll s).log.policy = s.log.policy ∧ (breakAll
    s).log.stallLimit = s.log.stallLimit ∧ (breakAll s).log.watermark = s.log.watermark ∧
    (breakAll s).log.tail = s.log.tail ∧ (breakAll s).log.head = s.log.head ∧ (breakAll
    s).log.allocated = s.log.allocated ∧ (breakAll s).log.finished = s.log.finished ∧ (breakAll
    s).ckpt.nextNumber = s.ckpt.nextNumber ∧ (breakAll s).ckpt.generation = s.ckpt.generation ∧
    (breakAll s).ckpt.fence = s.ckpt.fence ∧ (breakAll s).ckpt.ctrl = s.ckpt.ctrl ∧ (breakAll
    s).ckpt.lineFlag = s.ckpt.lineFlag ∧ (breakAll s).ckpt.timerFlag = s.ckpt.timerFlag ∧
    (breakAll s).ckpt.cascadeFlag = s.ckpt.cascadeFlag ∧ (breakAll s).ckpt.lineEnable =
    s.ckpt.lineEnable ∧ (breakAll s).ckpt.autoTake = s.ckpt.autoTake ∧ (breakAll s).ckpt.rolling =
    s.ckpt.rolling ∧ (breakAll s).ckpt.interval = s.ckpt.interval ∧ (breakAll
    s).ckpt.intervalCount = s.ckpt.intervalCount ∧ (breakAll s).ckpt.intervalMicros =
    s.ckpt.intervalMicros ∧ (breakAll s).ckpt.ckptLevel = s.ckpt.ckptLevel ∧ (breakAll s).restore
    = s.restore ∧ (breakAll s).down.preserveReady = s.down.preserveReady ∧ (breakAll
    s).down.restoreReady = s.down.restoreReady ∧ (breakAll s).down.tags = s.down.tags ∧ (breakAll
    s).down.channel = s.down.channel ∧ (breakAll s).down.turn = s.down.turn ∧ (breakAll
    s).down.used = s.down.used ∧ (breakAll s).down.limit = s.down.limit ∧ (breakAll s).down.wHost
    = s.down.wHost ∧ (breakAll s).down.wPreserve = s.down.wPreserve ∧ (breakAll s).down.wRestore =
    s.down.wRestore ∧ (breakAll s).down.timeout = s.down.timeout ∧ (breakAll s).casc = s.casc ∧
    (breakAll s).mgmt.decoder = s.mgmt.decoder ∧ (breakAll s).mgmt.mcsLow = s.mgmt.mcsLow ∧
    (breakAll s).mgmt.warmPending = s.mgmt.warmPending ∧ (breakAll s).mgmt.response =
    s.mgmt.response ∧ (breakAll s).mgmt.mask = s.mgmt.mask ∧ (breakAll s).mgmt.counters =
    s.mgmt.counters ∧ (breakAll s).mgmt.result = s.mgmt.result ∧ (breakAll s).pins = s.pins ∧
    (breakAll s).pending = s.pending := by
  unfold breakAll; (repeat' split) <;> simp

@[simp] theorem preservationStep_frame (e : Entry) (s : State) :
    (preservationStep e s).up = s.up ∧ (preservationStep e s).cls = s.cls ∧ (preservationStep e
    s).filter = s.filter ∧ (preservationStep e s).log.configured = s.log.configured ∧
    (preservationStep e s).log.base = s.log.base ∧ (preservationStep e s).log.capacity =
    s.log.capacity ∧ (preservationStep e s).log.policy = s.log.policy ∧ (preservationStep e
    s).log.stallLimit = s.log.stallLimit ∧ (preservationStep e s).log.watermark = s.log.watermark
    ∧ (preservationStep e s).log.tail = s.log.tail ∧ (preservationStep e s).log.head = s.log.head
    ∧ (preservationStep e s).log.finished = s.log.finished ∧ (preservationStep e
    s).ckpt.nextNumber = s.ckpt.nextNumber ∧ (preservationStep e s).ckpt.generation =
    s.ckpt.generation ∧ (preservationStep e s).ckpt.fence = s.ckpt.fence ∧ (preservationStep e
    s).ckpt.ctrl = s.ckpt.ctrl ∧ (preservationStep e s).ckpt.lineFlag = s.ckpt.lineFlag ∧
    (preservationStep e s).ckpt.timerFlag = s.ckpt.timerFlag ∧ (preservationStep e
    s).ckpt.cascadeFlag = s.ckpt.cascadeFlag ∧ (preservationStep e s).ckpt.lineEnable =
    s.ckpt.lineEnable ∧ (preservationStep e s).ckpt.autoTake = s.ckpt.autoTake ∧ (preservationStep
    e s).ckpt.rolling = s.ckpt.rolling ∧ (preservationStep e s).ckpt.interval = s.ckpt.interval ∧
    (preservationStep e s).ckpt.intervalCount = s.ckpt.intervalCount ∧ (preservationStep e
    s).ckpt.intervalMicros = s.ckpt.intervalMicros ∧ (preservationStep e s).ckpt.ckptLevel =
    s.ckpt.ckptLevel ∧ (preservationStep e s).restore = s.restore ∧ (preservationStep e
    s).down.restoreReady = s.down.restoreReady ∧ (preservationStep e s).down.tags = s.down.tags ∧
    (preservationStep e s).down.channel = s.down.channel ∧ (preservationStep e s).down.turn =
    s.down.turn ∧ (preservationStep e s).down.used = s.down.used ∧ (preservationStep e
    s).down.limit = s.down.limit ∧ (preservationStep e s).down.wHost = s.down.wHost ∧
    (preservationStep e s).down.wPreserve = s.down.wPreserve ∧ (preservationStep e
    s).down.wRestore = s.down.wRestore ∧ (preservationStep e s).down.timeout = s.down.timeout ∧
    (preservationStep e s).casc = s.casc ∧ (preservationStep e s).mgmt.decoder = s.mgmt.decoder ∧
    (preservationStep e s).mgmt.mcsLow = s.mgmt.mcsLow ∧ (preservationStep e s).mgmt.warmPending =
    s.mgmt.warmPending ∧ (preservationStep e s).mgmt.response = s.mgmt.response ∧
    (preservationStep e s).mgmt.mask = s.mgmt.mask ∧ (preservationStep e s).mgmt.result =
    s.mgmt.result ∧ (preservationStep e s).pins = s.pins ∧ (preservationStep e s).pending =
    s.pending := by
  unfold preservationStep; dsimp only; (repeat' split) <;> simp

@[simp] theorem eligible_frame (e : Entry) (s : State) :
    (eligible e s).up = s.up ∧ (eligible e s).cls = s.cls ∧ (eligible e s).filter = s.filter ∧
    (eligible e s).log.configured = s.log.configured ∧ (eligible e s).log.base = s.log.base ∧
    (eligible e s).log.capacity = s.log.capacity ∧ (eligible e s).log.policy = s.log.policy ∧
    (eligible e s).log.stallLimit = s.log.stallLimit ∧ (eligible e s).log.watermark =
    s.log.watermark ∧ (eligible e s).log.tail = s.log.tail ∧ (eligible e s).log.head = s.log.head
    ∧ (eligible e s).log.finished = s.log.finished ∧ (eligible e s).ckpt.nextNumber =
    s.ckpt.nextNumber ∧ (eligible e s).ckpt.generation = s.ckpt.generation ∧ (eligible e
    s).ckpt.fence = s.ckpt.fence ∧ (eligible e s).ckpt.ctrl = s.ckpt.ctrl ∧ (eligible e
    s).ckpt.lineFlag = s.ckpt.lineFlag ∧ (eligible e s).ckpt.timerFlag = s.ckpt.timerFlag ∧
    (eligible e s).ckpt.cascadeFlag = s.ckpt.cascadeFlag ∧ (eligible e s).ckpt.lineEnable =
    s.ckpt.lineEnable ∧ (eligible e s).ckpt.autoTake = s.ckpt.autoTake ∧ (eligible e
    s).ckpt.rolling = s.ckpt.rolling ∧ (eligible e s).ckpt.interval = s.ckpt.interval ∧ (eligible
    e s).ckpt.intervalCount = s.ckpt.intervalCount ∧ (eligible e s).ckpt.intervalMicros =
    s.ckpt.intervalMicros ∧ (eligible e s).ckpt.ckptLevel = s.ckpt.ckptLevel ∧ (eligible e
    s).restore = s.restore ∧ (eligible e s).down.restoreReady = s.down.restoreReady ∧ (eligible e
    s).down.tags = s.down.tags ∧ (eligible e s).down.channel = s.down.channel ∧ (eligible e
    s).down.turn = s.down.turn ∧ (eligible e s).down.used = s.down.used ∧ (eligible e
    s).down.limit = s.down.limit ∧ (eligible e s).down.wHost = s.down.wHost ∧ (eligible e
    s).down.wPreserve = s.down.wPreserve ∧ (eligible e s).down.wRestore = s.down.wRestore ∧
    (eligible e s).down.timeout = s.down.timeout ∧ (eligible e s).casc = s.casc ∧ (eligible e
    s).mgmt.decoder = s.mgmt.decoder ∧ (eligible e s).mgmt.mcsLow = s.mgmt.mcsLow ∧ (eligible e
    s).mgmt.warmPending = s.mgmt.warmPending ∧ (eligible e s).mgmt.response = s.mgmt.response ∧
    (eligible e s).mgmt.mask = s.mgmt.mask ∧ (eligible e s).mgmt.result = s.mgmt.result ∧
    (eligible e s).pins = s.pins ∧ (eligible e s).pending = s.pending := by
  unfold eligible; (repeat' split) <;> simp

@[simp] theorem runChain_frame (line : Nat) (k : Nat) (s : State) :
    (runChain line k s).up = s.up ∧ (runChain line k s).cls = s.cls ∧ (runChain line k s).filter =
    s.filter ∧ (runChain line k s).log.configured = s.log.configured ∧ (runChain line k
    s).log.base = s.log.base ∧ (runChain line k s).log.capacity = s.log.capacity ∧ (runChain line
    k s).log.policy = s.log.policy ∧ (runChain line k s).log.stallLimit = s.log.stallLimit ∧
    (runChain line k s).log.watermark = s.log.watermark ∧ (runChain line k s).log.tail =
    s.log.tail ∧ (runChain line k s).log.head = s.log.head ∧ (runChain line k s).log.finished =
    s.log.finished ∧ (runChain line k s).ckpt.nextNumber = s.ckpt.nextNumber ∧ (runChain line k
    s).ckpt.generation = s.ckpt.generation ∧ (runChain line k s).ckpt.fence = s.ckpt.fence ∧
    (runChain line k s).ckpt.ctrl = s.ckpt.ctrl ∧ (runChain line k s).ckpt.lineFlag =
    s.ckpt.lineFlag ∧ (runChain line k s).ckpt.timerFlag = s.ckpt.timerFlag ∧ (runChain line k
    s).ckpt.cascadeFlag = s.ckpt.cascadeFlag ∧ (runChain line k s).ckpt.lineEnable =
    s.ckpt.lineEnable ∧ (runChain line k s).ckpt.autoTake = s.ckpt.autoTake ∧ (runChain line k
    s).ckpt.rolling = s.ckpt.rolling ∧ (runChain line k s).ckpt.interval = s.ckpt.interval ∧
    (runChain line k s).ckpt.intervalCount = s.ckpt.intervalCount ∧ (runChain line k
    s).ckpt.intervalMicros = s.ckpt.intervalMicros ∧ (runChain line k s).ckpt.ckptLevel =
    s.ckpt.ckptLevel ∧ (runChain line k s).restore = s.restore ∧ (runChain line k
    s).down.restoreReady = s.down.restoreReady ∧ (runChain line k s).down.tags = s.down.tags ∧
    (runChain line k s).down.channel = s.down.channel ∧ (runChain line k s).down.turn =
    s.down.turn ∧ (runChain line k s).down.used = s.down.used ∧ (runChain line k s).down.limit =
    s.down.limit ∧ (runChain line k s).down.wHost = s.down.wHost ∧ (runChain line k
    s).down.wPreserve = s.down.wPreserve ∧ (runChain line k s).down.wRestore = s.down.wRestore ∧
    (runChain line k s).down.timeout = s.down.timeout ∧ (runChain line k s).casc = s.casc ∧
    (runChain line k s).mgmt.decoder = s.mgmt.decoder ∧ (runChain line k s).mgmt.mcsLow =
    s.mgmt.mcsLow ∧ (runChain line k s).mgmt.warmPending = s.mgmt.warmPending ∧ (runChain line k
    s).mgmt.response = s.mgmt.response ∧ (runChain line k s).mgmt.mask = s.mgmt.mask ∧ (runChain
    line k s).mgmt.result = s.mgmt.result ∧ (runChain line k s).pins = s.pins ∧ (runChain line k
    s).pending = s.pending := by
  induction k generalizing s with
  | zero => simp [runChain]
  | succ k ih => unfold runChain; (repeat' split) <;> simp [ih]

@[simp] theorem releaseChain_frame (line : Nat) (s : State) :
    (releaseChain line s).up = s.up ∧ (releaseChain line s).cls = s.cls ∧ (releaseChain line
    s).filter = s.filter ∧ (releaseChain line s).log.configured = s.log.configured ∧ (releaseChain
    line s).log.base = s.log.base ∧ (releaseChain line s).log.capacity = s.log.capacity ∧
    (releaseChain line s).log.policy = s.log.policy ∧ (releaseChain line s).log.stallLimit =
    s.log.stallLimit ∧ (releaseChain line s).log.watermark = s.log.watermark ∧ (releaseChain line
    s).log.tail = s.log.tail ∧ (releaseChain line s).log.head = s.log.head ∧ (releaseChain line
    s).log.finished = s.log.finished ∧ (releaseChain line s).ckpt.nextNumber = s.ckpt.nextNumber ∧
    (releaseChain line s).ckpt.generation = s.ckpt.generation ∧ (releaseChain line s).ckpt.fence =
    s.ckpt.fence ∧ (releaseChain line s).ckpt.ctrl = s.ckpt.ctrl ∧ (releaseChain line
    s).ckpt.lineFlag = s.ckpt.lineFlag ∧ (releaseChain line s).ckpt.timerFlag = s.ckpt.timerFlag ∧
    (releaseChain line s).ckpt.cascadeFlag = s.ckpt.cascadeFlag ∧ (releaseChain line
    s).ckpt.lineEnable = s.ckpt.lineEnable ∧ (releaseChain line s).ckpt.autoTake = s.ckpt.autoTake
    ∧ (releaseChain line s).ckpt.rolling = s.ckpt.rolling ∧ (releaseChain line s).ckpt.interval =
    s.ckpt.interval ∧ (releaseChain line s).ckpt.intervalCount = s.ckpt.intervalCount ∧
    (releaseChain line s).ckpt.intervalMicros = s.ckpt.intervalMicros ∧ (releaseChain line
    s).ckpt.ckptLevel = s.ckpt.ckptLevel ∧ (releaseChain line s).restore = s.restore ∧
    (releaseChain line s).down.restoreReady = s.down.restoreReady ∧ (releaseChain line
    s).down.tags = s.down.tags ∧ (releaseChain line s).down.channel = s.down.channel ∧
    (releaseChain line s).down.turn = s.down.turn ∧ (releaseChain line s).down.used = s.down.used
    ∧ (releaseChain line s).down.limit = s.down.limit ∧ (releaseChain line s).down.wHost =
    s.down.wHost ∧ (releaseChain line s).down.wPreserve = s.down.wPreserve ∧ (releaseChain line
    s).down.wRestore = s.down.wRestore ∧ (releaseChain line s).down.timeout = s.down.timeout ∧
    (releaseChain line s).casc = s.casc ∧ (releaseChain line s).mgmt.decoder = s.mgmt.decoder ∧
    (releaseChain line s).mgmt.mcsLow = s.mgmt.mcsLow ∧ (releaseChain line s).mgmt.warmPending =
    s.mgmt.warmPending ∧ (releaseChain line s).mgmt.response = s.mgmt.response ∧ (releaseChain
    line s).mgmt.mask = s.mgmt.mask ∧ (releaseChain line s).mgmt.result = s.mgmt.result ∧
    (releaseChain line s).pins = s.pins ∧ (releaseChain line s).pending = s.pending := by
  unfold releaseChain; simp

@[simp] theorem finishEntry_frame (n : Fin 32) (st : UpStatus) (s : State) :
    (finishEntry n st s).up = s.up ∧ (finishEntry n st s).cls = s.cls ∧ (finishEntry n st
    s).filter = s.filter ∧ (finishEntry n st s).log.configured = s.log.configured ∧ (finishEntry n
    st s).log.base = s.log.base ∧ (finishEntry n st s).log.capacity = s.log.capacity ∧
    (finishEntry n st s).log.policy = s.log.policy ∧ (finishEntry n st s).log.stallLimit =
    s.log.stallLimit ∧ (finishEntry n st s).log.watermark = s.log.watermark ∧ (finishEntry n st
    s).log.tail = s.log.tail ∧ (finishEntry n st s).log.head = s.log.head ∧ (finishEntry n st
    s).log.finished = s.log.finished ∧ (finishEntry n st s).ckpt.nextNumber = s.ckpt.nextNumber ∧
    (finishEntry n st s).ckpt.generation = s.ckpt.generation ∧ (finishEntry n st s).ckpt.fence =
    s.ckpt.fence ∧ (finishEntry n st s).ckpt.ctrl = s.ckpt.ctrl ∧ (finishEntry n st
    s).ckpt.lineFlag = s.ckpt.lineFlag ∧ (finishEntry n st s).ckpt.timerFlag = s.ckpt.timerFlag ∧
    (finishEntry n st s).ckpt.cascadeFlag = s.ckpt.cascadeFlag ∧ (finishEntry n st
    s).ckpt.lineEnable = s.ckpt.lineEnable ∧ (finishEntry n st s).ckpt.autoTake = s.ckpt.autoTake
    ∧ (finishEntry n st s).ckpt.rolling = s.ckpt.rolling ∧ (finishEntry n st s).ckpt.interval =
    s.ckpt.interval ∧ (finishEntry n st s).ckpt.intervalCount = s.ckpt.intervalCount ∧
    (finishEntry n st s).ckpt.intervalMicros = s.ckpt.intervalMicros ∧ (finishEntry n st
    s).ckpt.ckptLevel = s.ckpt.ckptLevel ∧ (finishEntry n st s).restore = s.restore ∧ (finishEntry
    n st s).down.restoreReady = s.down.restoreReady ∧ (finishEntry n st s).down.tags = s.down.tags
    ∧ (finishEntry n st s).down.channel = s.down.channel ∧ (finishEntry n st s).down.turn =
    s.down.turn ∧ (finishEntry n st s).down.used = s.down.used ∧ (finishEntry n st s).down.limit =
    s.down.limit ∧ (finishEntry n st s).down.wHost = s.down.wHost ∧ (finishEntry n st
    s).down.wPreserve = s.down.wPreserve ∧ (finishEntry n st s).down.wRestore = s.down.wRestore ∧
    (finishEntry n st s).down.timeout = s.down.timeout ∧ (finishEntry n st s).casc = s.casc ∧
    (finishEntry n st s).mgmt.decoder = s.mgmt.decoder ∧ (finishEntry n st s).mgmt.mcsLow =
    s.mgmt.mcsLow ∧ (finishEntry n st s).mgmt.warmPending = s.mgmt.warmPending ∧ (finishEntry n st
    s).mgmt.response = s.mgmt.response ∧ (finishEntry n st s).mgmt.mask = s.mgmt.mask ∧
    (finishEntry n st s).mgmt.result = s.mgmt.result ∧ (finishEntry n st s).pins = s.pins ∧
    (finishEntry n st s).pending = s.pending := by
  unfold finishEntry; (repeat' split) <;> simp

@[simp] theorem fenceWaiting_frame (s : State) :
    (fenceWaiting s).up = s.up ∧ (fenceWaiting s).cls = s.cls ∧ (fenceWaiting s).filter = s.filter
    ∧ (fenceWaiting s).log.configured = s.log.configured ∧ (fenceWaiting s).log.base = s.log.base
    ∧ (fenceWaiting s).log.capacity = s.log.capacity ∧ (fenceWaiting s).log.policy = s.log.policy
    ∧ (fenceWaiting s).log.stallLimit = s.log.stallLimit ∧ (fenceWaiting s).log.watermark =
    s.log.watermark ∧ (fenceWaiting s).log.tail = s.log.tail ∧ (fenceWaiting s).log.head =
    s.log.head ∧ (fenceWaiting s).log.finished = s.log.finished ∧ (fenceWaiting s).ckpt.nextNumber
    = s.ckpt.nextNumber ∧ (fenceWaiting s).ckpt.generation = s.ckpt.generation ∧ (fenceWaiting
    s).ckpt.fence = s.ckpt.fence ∧ (fenceWaiting s).ckpt.ctrl = s.ckpt.ctrl ∧ (fenceWaiting
    s).ckpt.lineFlag = s.ckpt.lineFlag ∧ (fenceWaiting s).ckpt.timerFlag = s.ckpt.timerFlag ∧
    (fenceWaiting s).ckpt.cascadeFlag = s.ckpt.cascadeFlag ∧ (fenceWaiting s).ckpt.lineEnable =
    s.ckpt.lineEnable ∧ (fenceWaiting s).ckpt.autoTake = s.ckpt.autoTake ∧ (fenceWaiting
    s).ckpt.rolling = s.ckpt.rolling ∧ (fenceWaiting s).ckpt.interval = s.ckpt.interval ∧
    (fenceWaiting s).ckpt.intervalCount = s.ckpt.intervalCount ∧ (fenceWaiting
    s).ckpt.intervalMicros = s.ckpt.intervalMicros ∧ (fenceWaiting s).ckpt.ckptLevel =
    s.ckpt.ckptLevel ∧ (fenceWaiting s).restore = s.restore ∧ (fenceWaiting s).down.restoreReady =
    s.down.restoreReady ∧ (fenceWaiting s).down.tags = s.down.tags ∧ (fenceWaiting s).down.channel
    = s.down.channel ∧ (fenceWaiting s).down.turn = s.down.turn ∧ (fenceWaiting s).down.used =
    s.down.used ∧ (fenceWaiting s).down.limit = s.down.limit ∧ (fenceWaiting s).down.wHost =
    s.down.wHost ∧ (fenceWaiting s).down.wPreserve = s.down.wPreserve ∧ (fenceWaiting
    s).down.wRestore = s.down.wRestore ∧ (fenceWaiting s).down.timeout = s.down.timeout ∧
    (fenceWaiting s).casc = s.casc ∧ (fenceWaiting s).mgmt.decoder = s.mgmt.decoder ∧
    (fenceWaiting s).mgmt.mcsLow = s.mgmt.mcsLow ∧ (fenceWaiting s).mgmt.warmPending =
    s.mgmt.warmPending ∧ (fenceWaiting s).mgmt.response = s.mgmt.response ∧ (fenceWaiting
    s).mgmt.mask = s.mgmt.mask ∧ (fenceWaiting s).mgmt.result = s.mgmt.result ∧ (fenceWaiting
    s).pins = s.pins ∧ (fenceWaiting s).pending = s.pending := by
  have key {γ : Type} (p : State → γ) (h : ∀ s n, p ((fun s n => finishEntry n .fenced s) s n) = p s) (a : State) :
      p (s.log.waitList.foldl (fun s n => finishEntry n .fenced s) a) = p a :=
    foldl_keeps p _ h _ a
  unfold fenceWaiting
  simp [key (fun s => s.up) (by simp), key (fun s => s.cls) (by simp), key (fun s => s.filter) (by simp), key (fun s => s.log.configured) (by simp), key (fun s => s.log.base) (by simp), key (fun s => s.log.capacity) (by simp), key (fun s => s.log.policy) (by simp), key (fun s => s.log.stallLimit) (by simp), key (fun s => s.log.watermark) (by simp), key (fun s => s.log.tail) (by simp), key (fun s => s.log.head) (by simp), key (fun s => s.log.finished) (by simp), key (fun s => s.ckpt.nextNumber) (by simp), key (fun s => s.ckpt.generation) (by simp), key (fun s => s.ckpt.fence) (by simp), key (fun s => s.ckpt.ctrl) (by simp), key (fun s => s.ckpt.lineFlag) (by simp), key (fun s => s.ckpt.timerFlag) (by simp), key (fun s => s.ckpt.cascadeFlag) (by simp), key (fun s => s.ckpt.lineEnable) (by simp), key (fun s => s.ckpt.autoTake) (by simp), key (fun s => s.ckpt.rolling) (by simp), key (fun s => s.ckpt.interval) (by simp), key (fun s => s.ckpt.intervalCount) (by simp), key (fun s => s.ckpt.intervalMicros) (by simp), key (fun s => s.ckpt.ckptLevel) (by simp), key (fun s => s.restore) (by simp), key (fun s => s.down.restoreReady) (by simp), key (fun s => s.down.tags) (by simp), key (fun s => s.down.channel) (by simp), key (fun s => s.down.turn) (by simp), key (fun s => s.down.used) (by simp), key (fun s => s.down.limit) (by simp), key (fun s => s.down.wHost) (by simp), key (fun s => s.down.wPreserve) (by simp), key (fun s => s.down.wRestore) (by simp), key (fun s => s.down.timeout) (by simp), key (fun s => s.casc) (by simp), key (fun s => s.mgmt.decoder) (by simp), key (fun s => s.mgmt.mcsLow) (by simp), key (fun s => s.mgmt.warmPending) (by simp), key (fun s => s.mgmt.response) (by simp), key (fun s => s.mgmt.mask) (by simp), key (fun s => s.mgmt.result) (by simp), key (fun s => s.pins) (by simp), key (fun s => s.pending) (by simp)]

@[simp] theorem passHead_frame (o : RecOutcome) (s : State) :
    (passHead o s).up = s.up ∧ (passHead o s).cls = s.cls ∧ (passHead o s).entries = s.entries ∧
    (passHead o s).filter = s.filter ∧ (passHead o s).log.configured = s.log.configured ∧
    (passHead o s).log.base = s.log.base ∧ (passHead o s).log.capacity = s.log.capacity ∧
    (passHead o s).log.policy = s.log.policy ∧ (passHead o s).log.stallLimit = s.log.stallLimit ∧
    (passHead o s).log.watermark = s.log.watermark ∧ (passHead o s).log.allocated =
    s.log.allocated ∧ (passHead o s).log.waitList = s.log.waitList ∧ (passHead o s).log.stallClock
    = s.log.stallClock ∧ (passHead o s).ckpt.nextNumber = s.ckpt.nextNumber ∧ (passHead o
    s).ckpt.generation = s.ckpt.generation ∧ (passHead o s).ckpt.fence = s.ckpt.fence ∧ (passHead
    o s).ckpt.ctrl = s.ckpt.ctrl ∧ (passHead o s).ckpt.lineFlag = s.ckpt.lineFlag ∧ (passHead o
    s).ckpt.timerFlag = s.ckpt.timerFlag ∧ (passHead o s).ckpt.cascadeFlag = s.ckpt.cascadeFlag ∧
    (passHead o s).ckpt.lineEnable = s.ckpt.lineEnable ∧ (passHead o s).ckpt.autoTake =
    s.ckpt.autoTake ∧ (passHead o s).ckpt.rolling = s.ckpt.rolling ∧ (passHead o s).ckpt.interval
    = s.ckpt.interval ∧ (passHead o s).ckpt.intervalCount = s.ckpt.intervalCount ∧ (passHead o
    s).ckpt.intervalMicros = s.ckpt.intervalMicros ∧ (passHead o s).ckpt.ckptLevel =
    s.ckpt.ckptLevel ∧ (passHead o s).restore = s.restore ∧ (passHead o s).down = s.down ∧
    (passHead o s).casc = s.casc ∧ (passHead o s).mgmt.decoder = s.mgmt.decoder ∧ (passHead o
    s).mgmt.mcsLow = s.mgmt.mcsLow ∧ (passHead o s).mgmt.warmPending = s.mgmt.warmPending ∧
    (passHead o s).mgmt.response = s.mgmt.response ∧ (passHead o s).mgmt.latches = s.mgmt.latches
    ∧ (passHead o s).mgmt.mask = s.mgmt.mask ∧ (passHead o s).mgmt.result = s.mgmt.result ∧
    (passHead o s).pins = s.pins ∧ (passHead o s).pending = s.pending := by
  unfold passHead; dsimp only; (repeat' split) <;> simp

@[simp] theorem advanceHead_frame (k : Nat) (s : State) :
    (advanceHead k s).up = s.up ∧ (advanceHead k s).cls = s.cls ∧ (advanceHead k s).entries =
    s.entries ∧ (advanceHead k s).filter = s.filter ∧ (advanceHead k s).log.configured =
    s.log.configured ∧ (advanceHead k s).log.base = s.log.base ∧ (advanceHead k s).log.capacity =
    s.log.capacity ∧ (advanceHead k s).log.policy = s.log.policy ∧ (advanceHead k
    s).log.stallLimit = s.log.stallLimit ∧ (advanceHead k s).log.watermark = s.log.watermark ∧
    (advanceHead k s).log.allocated = s.log.allocated ∧ (advanceHead k s).log.waitList =
    s.log.waitList ∧ (advanceHead k s).log.stallClock = s.log.stallClock ∧ (advanceHead k
    s).ckpt.nextNumber = s.ckpt.nextNumber ∧ (advanceHead k s).ckpt.generation = s.ckpt.generation
    ∧ (advanceHead k s).ckpt.fence = s.ckpt.fence ∧ (advanceHead k s).ckpt.ctrl = s.ckpt.ctrl ∧
    (advanceHead k s).ckpt.lineFlag = s.ckpt.lineFlag ∧ (advanceHead k s).ckpt.timerFlag =
    s.ckpt.timerFlag ∧ (advanceHead k s).ckpt.cascadeFlag = s.ckpt.cascadeFlag ∧ (advanceHead k
    s).ckpt.lineEnable = s.ckpt.lineEnable ∧ (advanceHead k s).ckpt.autoTake = s.ckpt.autoTake ∧
    (advanceHead k s).ckpt.rolling = s.ckpt.rolling ∧ (advanceHead k s).ckpt.interval =
    s.ckpt.interval ∧ (advanceHead k s).ckpt.intervalCount = s.ckpt.intervalCount ∧ (advanceHead k
    s).ckpt.intervalMicros = s.ckpt.intervalMicros ∧ (advanceHead k s).ckpt.ckptLevel =
    s.ckpt.ckptLevel ∧ (advanceHead k s).restore = s.restore ∧ (advanceHead k s).down = s.down ∧
    (advanceHead k s).casc = s.casc ∧ (advanceHead k s).mgmt.decoder = s.mgmt.decoder ∧
    (advanceHead k s).mgmt.mcsLow = s.mgmt.mcsLow ∧ (advanceHead k s).mgmt.warmPending =
    s.mgmt.warmPending ∧ (advanceHead k s).mgmt.response = s.mgmt.response ∧ (advanceHead k
    s).mgmt.latches = s.mgmt.latches ∧ (advanceHead k s).mgmt.mask = s.mgmt.mask ∧ (advanceHead k
    s).mgmt.result = s.mgmt.result ∧ (advanceHead k s).pins = s.pins ∧ (advanceHead k s).pending =
    s.pending := by
  induction k generalizing s with
  | zero => simp [advanceHead]
  | succ k ih => unfold advanceHead; (repeat' split) <;> simp [ih]

@[simp] theorem leaveCommitWait_frame (n : Fin 32) (s : State) :
    (leaveCommitWait n s).up = s.up ∧ (leaveCommitWait n s).cls = s.cls ∧ (leaveCommitWait n
    s).log = s.log ∧ (leaveCommitWait n s).ckpt = s.ckpt ∧ (leaveCommitWait n s).restore =
    s.restore ∧ (leaveCommitWait n s).down.preserveReady = s.down.preserveReady ∧ (leaveCommitWait
    n s).down.restoreReady = s.down.restoreReady ∧ (leaveCommitWait n s).down.tags = s.down.tags ∧
    (leaveCommitWait n s).down.channel = s.down.channel ∧ (leaveCommitWait n s).down.turn =
    s.down.turn ∧ (leaveCommitWait n s).down.used = s.down.used ∧ (leaveCommitWait n s).down.limit
    = s.down.limit ∧ (leaveCommitWait n s).down.wHost = s.down.wHost ∧ (leaveCommitWait n
    s).down.wPreserve = s.down.wPreserve ∧ (leaveCommitWait n s).down.wRestore = s.down.wRestore ∧
    (leaveCommitWait n s).down.timeout = s.down.timeout ∧ (leaveCommitWait n s).casc = s.casc ∧
    (leaveCommitWait n s).mgmt.decoder = s.mgmt.decoder ∧ (leaveCommitWait n s).mgmt.mcsLow =
    s.mgmt.mcsLow ∧ (leaveCommitWait n s).mgmt.warmPending = s.mgmt.warmPending ∧ (leaveCommitWait
    n s).mgmt.response = s.mgmt.response ∧ (leaveCommitWait n s).mgmt.latches = s.mgmt.latches ∧
    (leaveCommitWait n s).mgmt.mask = s.mgmt.mask ∧ (leaveCommitWait n s).mgmt.result =
    s.mgmt.result ∧ (leaveCommitWait n s).pins = s.pins ∧ (leaveCommitWait n s).pending =
    s.pending := by
  unfold leaveCommitWait; dsimp only; (repeat' split) <;> simp

@[simp] theorem exitIfReady_frame (n : Fin 32) (s : State) :
    (exitIfReady n s).up = s.up ∧ (exitIfReady n s).cls = s.cls ∧ (exitIfReady n s).log = s.log ∧
    (exitIfReady n s).ckpt = s.ckpt ∧ (exitIfReady n s).restore = s.restore ∧ (exitIfReady n
    s).down.preserveReady = s.down.preserveReady ∧ (exitIfReady n s).down.restoreReady =
    s.down.restoreReady ∧ (exitIfReady n s).down.tags = s.down.tags ∧ (exitIfReady n
    s).down.channel = s.down.channel ∧ (exitIfReady n s).down.turn = s.down.turn ∧ (exitIfReady n
    s).down.used = s.down.used ∧ (exitIfReady n s).down.limit = s.down.limit ∧ (exitIfReady n
    s).down.wHost = s.down.wHost ∧ (exitIfReady n s).down.wPreserve = s.down.wPreserve ∧
    (exitIfReady n s).down.wRestore = s.down.wRestore ∧ (exitIfReady n s).down.timeout =
    s.down.timeout ∧ (exitIfReady n s).casc = s.casc ∧ (exitIfReady n s).mgmt.decoder =
    s.mgmt.decoder ∧ (exitIfReady n s).mgmt.mcsLow = s.mgmt.mcsLow ∧ (exitIfReady n
    s).mgmt.warmPending = s.mgmt.warmPending ∧ (exitIfReady n s).mgmt.response = s.mgmt.response ∧
    (exitIfReady n s).mgmt.latches = s.mgmt.latches ∧ (exitIfReady n s).mgmt.mask = s.mgmt.mask ∧
    (exitIfReady n s).mgmt.result = s.mgmt.result ∧ (exitIfReady n s).pins = s.pins ∧ (exitIfReady
    n s).pending = s.pending := by
  unfold exitIfReady; (repeat' split) <;> simp

@[simp] theorem finishRecord_frame (n : Fin 32) (o : RecOutcome) (s : State) :
    (finishRecord n o s).up = s.up ∧ (finishRecord n o s).cls = s.cls ∧ (finishRecord n o
    s).log.configured = s.log.configured ∧ (finishRecord n o s).log.base = s.log.base ∧
    (finishRecord n o s).log.capacity = s.log.capacity ∧ (finishRecord n o s).log.policy =
    s.log.policy ∧ (finishRecord n o s).log.stallLimit = s.log.stallLimit ∧ (finishRecord n o
    s).log.watermark = s.log.watermark ∧ (finishRecord n o s).log.allocated = s.log.allocated ∧
    (finishRecord n o s).log.waitList = s.log.waitList ∧ (finishRecord n o s).log.stallClock =
    s.log.stallClock ∧ (finishRecord n o s).ckpt.nextNumber = s.ckpt.nextNumber ∧ (finishRecord n
    o s).ckpt.generation = s.ckpt.generation ∧ (finishRecord n o s).ckpt.fence = s.ckpt.fence ∧
    (finishRecord n o s).ckpt.ctrl = s.ckpt.ctrl ∧ (finishRecord n o s).ckpt.lineFlag =
    s.ckpt.lineFlag ∧ (finishRecord n o s).ckpt.timerFlag = s.ckpt.timerFlag ∧ (finishRecord n o
    s).ckpt.cascadeFlag = s.ckpt.cascadeFlag ∧ (finishRecord n o s).ckpt.lineEnable =
    s.ckpt.lineEnable ∧ (finishRecord n o s).ckpt.autoTake = s.ckpt.autoTake ∧ (finishRecord n o
    s).ckpt.rolling = s.ckpt.rolling ∧ (finishRecord n o s).ckpt.interval = s.ckpt.interval ∧
    (finishRecord n o s).ckpt.intervalCount = s.ckpt.intervalCount ∧ (finishRecord n o
    s).ckpt.intervalMicros = s.ckpt.intervalMicros ∧ (finishRecord n o s).ckpt.ckptLevel =
    s.ckpt.ckptLevel ∧ (finishRecord n o s).restore = s.restore ∧ (finishRecord n o
    s).down.preserveReady = s.down.preserveReady ∧ (finishRecord n o s).down.restoreReady =
    s.down.restoreReady ∧ (finishRecord n o s).down.tags = s.down.tags ∧ (finishRecord n o
    s).down.channel = s.down.channel ∧ (finishRecord n o s).down.turn = s.down.turn ∧
    (finishRecord n o s).down.used = s.down.used ∧ (finishRecord n o s).down.limit = s.down.limit
    ∧ (finishRecord n o s).down.wHost = s.down.wHost ∧ (finishRecord n o s).down.wPreserve =
    s.down.wPreserve ∧ (finishRecord n o s).down.wRestore = s.down.wRestore ∧ (finishRecord n o
    s).down.timeout = s.down.timeout ∧ (finishRecord n o s).casc = s.casc ∧ (finishRecord n o
    s).mgmt.decoder = s.mgmt.decoder ∧ (finishRecord n o s).mgmt.mcsLow = s.mgmt.mcsLow ∧
    (finishRecord n o s).mgmt.warmPending = s.mgmt.warmPending ∧ (finishRecord n o
    s).mgmt.response = s.mgmt.response ∧ (finishRecord n o s).mgmt.latches = s.mgmt.latches ∧
    (finishRecord n o s).mgmt.mask = s.mgmt.mask ∧ (finishRecord n o s).mgmt.result =
    s.mgmt.result ∧ (finishRecord n o s).pins = s.pins ∧ (finishRecord n o s).pending = s.pending := by
  unfold finishRecord; dsimp only; (repeat' split) <;> simp

@[simp] theorem captureOk_frame (n : Fin 32) (old : LineData) (s : State) :
    (captureOk n old s).up = s.up ∧ (captureOk n old s).cls = s.cls ∧ (captureOk n old s).filter =
    s.filter ∧ (captureOk n old s).log = s.log ∧ (captureOk n old s).ckpt = s.ckpt ∧ (captureOk n
    old s).restore = s.restore ∧ (captureOk n old s).down.hostReady = s.down.hostReady ∧
    (captureOk n old s).down.restoreReady = s.down.restoreReady ∧ (captureOk n old s).down.tags =
    s.down.tags ∧ (captureOk n old s).down.channel = s.down.channel ∧ (captureOk n old
    s).down.turn = s.down.turn ∧ (captureOk n old s).down.used = s.down.used ∧ (captureOk n old
    s).down.limit = s.down.limit ∧ (captureOk n old s).down.wHost = s.down.wHost ∧ (captureOk n
    old s).down.wPreserve = s.down.wPreserve ∧ (captureOk n old s).down.wRestore = s.down.wRestore
    ∧ (captureOk n old s).down.timeout = s.down.timeout ∧ (captureOk n old s).casc = s.casc ∧
    (captureOk n old s).mgmt = s.mgmt ∧ (captureOk n old s).pins = s.pins ∧ (captureOk n old
    s).pending = s.pending := by
  unfold captureOk; dsimp only; (repeat' split) <;> simp

@[simp] theorem capturePoison_frame (n : Fin 32) (timedOut : Bool) (s : State) :
    (capturePoison n timedOut s).up = s.up ∧ (capturePoison n timedOut s).cls = s.cls ∧
    (capturePoison n timedOut s).filter = s.filter ∧ (capturePoison n timedOut s).log = s.log ∧
    (capturePoison n timedOut s).ckpt = s.ckpt ∧ (capturePoison n timedOut s).restore = s.restore
    ∧ (capturePoison n timedOut s).down.hostReady = s.down.hostReady ∧ (capturePoison n timedOut
    s).down.restoreReady = s.down.restoreReady ∧ (capturePoison n timedOut s).down.tags =
    s.down.tags ∧ (capturePoison n timedOut s).down.channel = s.down.channel ∧ (capturePoison n
    timedOut s).down.turn = s.down.turn ∧ (capturePoison n timedOut s).down.used = s.down.used ∧
    (capturePoison n timedOut s).down.limit = s.down.limit ∧ (capturePoison n timedOut
    s).down.wHost = s.down.wHost ∧ (capturePoison n timedOut s).down.wPreserve = s.down.wPreserve
    ∧ (capturePoison n timedOut s).down.wRestore = s.down.wRestore ∧ (capturePoison n timedOut
    s).down.timeout = s.down.timeout ∧ (capturePoison n timedOut s).casc = s.casc ∧ (capturePoison
    n timedOut s).mgmt.decoder = s.mgmt.decoder ∧ (capturePoison n timedOut s).mgmt.mcsLow =
    s.mgmt.mcsLow ∧ (capturePoison n timedOut s).mgmt.warmPending = s.mgmt.warmPending ∧
    (capturePoison n timedOut s).mgmt.response = s.mgmt.response ∧ (capturePoison n timedOut
    s).mgmt.mask = s.mgmt.mask ∧ (capturePoison n timedOut s).mgmt.counters = s.mgmt.counters ∧
    (capturePoison n timedOut s).mgmt.result = s.mgmt.result ∧ (capturePoison n timedOut s).pins =
    s.pins ∧ (capturePoison n timedOut s).pending = s.pending := by
  unfold capturePoison; dsimp only; (repeat' split) <;> simp

@[simp] theorem endRecord_frame (n : Fin 32) (s : State) :
    (endRecord n s).up = s.up ∧ (endRecord n s).cls = s.cls ∧ (endRecord n s).log.configured =
    s.log.configured ∧ (endRecord n s).log.base = s.log.base ∧ (endRecord n s).log.capacity =
    s.log.capacity ∧ (endRecord n s).log.policy = s.log.policy ∧ (endRecord n s).log.stallLimit =
    s.log.stallLimit ∧ (endRecord n s).log.watermark = s.log.watermark ∧ (endRecord n
    s).log.allocated = s.log.allocated ∧ (endRecord n s).log.waitList = s.log.waitList ∧
    (endRecord n s).log.stallClock = s.log.stallClock ∧ (endRecord n s).ckpt.nextNumber =
    s.ckpt.nextNumber ∧ (endRecord n s).ckpt.generation = s.ckpt.generation ∧ (endRecord n
    s).ckpt.fence = s.ckpt.fence ∧ (endRecord n s).ckpt.ctrl = s.ckpt.ctrl ∧ (endRecord n
    s).ckpt.lineFlag = s.ckpt.lineFlag ∧ (endRecord n s).ckpt.timerFlag = s.ckpt.timerFlag ∧
    (endRecord n s).ckpt.cascadeFlag = s.ckpt.cascadeFlag ∧ (endRecord n s).ckpt.lineEnable =
    s.ckpt.lineEnable ∧ (endRecord n s).ckpt.autoTake = s.ckpt.autoTake ∧ (endRecord n
    s).ckpt.rolling = s.ckpt.rolling ∧ (endRecord n s).ckpt.interval = s.ckpt.interval ∧
    (endRecord n s).ckpt.intervalCount = s.ckpt.intervalCount ∧ (endRecord n
    s).ckpt.intervalMicros = s.ckpt.intervalMicros ∧ (endRecord n s).ckpt.ckptLevel =
    s.ckpt.ckptLevel ∧ (endRecord n s).restore = s.restore ∧ (endRecord n s).down.preserveReady =
    s.down.preserveReady ∧ (endRecord n s).down.restoreReady = s.down.restoreReady ∧ (endRecord n
    s).down.tags = s.down.tags ∧ (endRecord n s).down.channel = s.down.channel ∧ (endRecord n
    s).down.turn = s.down.turn ∧ (endRecord n s).down.used = s.down.used ∧ (endRecord n
    s).down.limit = s.down.limit ∧ (endRecord n s).down.wHost = s.down.wHost ∧ (endRecord n
    s).down.wPreserve = s.down.wPreserve ∧ (endRecord n s).down.wRestore = s.down.wRestore ∧
    (endRecord n s).down.timeout = s.down.timeout ∧ (endRecord n s).casc = s.casc ∧ (endRecord n
    s).mgmt.decoder = s.mgmt.decoder ∧ (endRecord n s).mgmt.mcsLow = s.mgmt.mcsLow ∧ (endRecord n
    s).mgmt.warmPending = s.mgmt.warmPending ∧ (endRecord n s).mgmt.response = s.mgmt.response ∧
    (endRecord n s).mgmt.latches = s.mgmt.latches ∧ (endRecord n s).mgmt.mask = s.mgmt.mask ∧
    (endRecord n s).mgmt.result = s.mgmt.result ∧ (endRecord n s).pins = s.pins ∧ (endRecord n
    s).pending = s.pending := by
  unfold endRecord; (repeat' split) <;> simp

@[simp] theorem recordWriteOk_frame (n : Fin 32) (w : RecWrite) (s : State) :
    (recordWriteOk n w s).up = s.up ∧ (recordWriteOk n w s).cls = s.cls ∧ (recordWriteOk n w
    s).log.configured = s.log.configured ∧ (recordWriteOk n w s).log.base = s.log.base ∧
    (recordWriteOk n w s).log.capacity = s.log.capacity ∧ (recordWriteOk n w s).log.policy =
    s.log.policy ∧ (recordWriteOk n w s).log.stallLimit = s.log.stallLimit ∧ (recordWriteOk n w
    s).log.watermark = s.log.watermark ∧ (recordWriteOk n w s).log.allocated = s.log.allocated ∧
    (recordWriteOk n w s).log.waitList = s.log.waitList ∧ (recordWriteOk n w s).log.stallClock =
    s.log.stallClock ∧ (recordWriteOk n w s).ckpt.nextNumber = s.ckpt.nextNumber ∧ (recordWriteOk
    n w s).ckpt.generation = s.ckpt.generation ∧ (recordWriteOk n w s).ckpt.fence = s.ckpt.fence ∧
    (recordWriteOk n w s).ckpt.ctrl = s.ckpt.ctrl ∧ (recordWriteOk n w s).ckpt.lineFlag =
    s.ckpt.lineFlag ∧ (recordWriteOk n w s).ckpt.timerFlag = s.ckpt.timerFlag ∧ (recordWriteOk n w
    s).ckpt.cascadeFlag = s.ckpt.cascadeFlag ∧ (recordWriteOk n w s).ckpt.lineEnable =
    s.ckpt.lineEnable ∧ (recordWriteOk n w s).ckpt.autoTake = s.ckpt.autoTake ∧ (recordWriteOk n w
    s).ckpt.rolling = s.ckpt.rolling ∧ (recordWriteOk n w s).ckpt.interval = s.ckpt.interval ∧
    (recordWriteOk n w s).ckpt.intervalCount = s.ckpt.intervalCount ∧ (recordWriteOk n w
    s).ckpt.intervalMicros = s.ckpt.intervalMicros ∧ (recordWriteOk n w s).ckpt.ckptLevel =
    s.ckpt.ckptLevel ∧ (recordWriteOk n w s).restore = s.restore ∧ (recordWriteOk n w
    s).down.preserveReady = s.down.preserveReady ∧ (recordWriteOk n w s).down.restoreReady =
    s.down.restoreReady ∧ (recordWriteOk n w s).down.tags = s.down.tags ∧ (recordWriteOk n w
    s).down.channel = s.down.channel ∧ (recordWriteOk n w s).down.turn = s.down.turn ∧
    (recordWriteOk n w s).down.used = s.down.used ∧ (recordWriteOk n w s).down.limit =
    s.down.limit ∧ (recordWriteOk n w s).down.wHost = s.down.wHost ∧ (recordWriteOk n w
    s).down.wPreserve = s.down.wPreserve ∧ (recordWriteOk n w s).down.wRestore = s.down.wRestore ∧
    (recordWriteOk n w s).down.timeout = s.down.timeout ∧ (recordWriteOk n w s).casc = s.casc ∧
    (recordWriteOk n w s).mgmt.decoder = s.mgmt.decoder ∧ (recordWriteOk n w s).mgmt.mcsLow =
    s.mgmt.mcsLow ∧ (recordWriteOk n w s).mgmt.warmPending = s.mgmt.warmPending ∧ (recordWriteOk n
    w s).mgmt.response = s.mgmt.response ∧ (recordWriteOk n w s).mgmt.latches = s.mgmt.latches ∧
    (recordWriteOk n w s).mgmt.mask = s.mgmt.mask ∧ (recordWriteOk n w s).mgmt.result =
    s.mgmt.result ∧ (recordWriteOk n w s).pins = s.pins ∧ (recordWriteOk n w s).pending =
    s.pending := by
  unfold recordWriteOk; simp

@[simp] theorem withdrawWaiting_frame (n : Fin 32) (s : State) :
    (withdrawWaiting n s).up = s.up ∧ (withdrawWaiting n s).cls = s.cls ∧ (withdrawWaiting n
    s).filter = s.filter ∧ (withdrawWaiting n s).log = s.log ∧ (withdrawWaiting n s).ckpt = s.ckpt
    ∧ (withdrawWaiting n s).restore = s.restore ∧ (withdrawWaiting n s).down.hostReady =
    s.down.hostReady ∧ (withdrawWaiting n s).down.restoreReady = s.down.restoreReady ∧
    (withdrawWaiting n s).down.tags = s.down.tags ∧ (withdrawWaiting n s).down.channel =
    s.down.channel ∧ (withdrawWaiting n s).down.turn = s.down.turn ∧ (withdrawWaiting n
    s).down.used = s.down.used ∧ (withdrawWaiting n s).down.limit = s.down.limit ∧
    (withdrawWaiting n s).down.wHost = s.down.wHost ∧ (withdrawWaiting n s).down.wPreserve =
    s.down.wPreserve ∧ (withdrawWaiting n s).down.wRestore = s.down.wRestore ∧ (withdrawWaiting n
    s).down.timeout = s.down.timeout ∧ (withdrawWaiting n s).casc = s.casc ∧ (withdrawWaiting n
    s).mgmt = s.mgmt ∧ (withdrawWaiting n s).pins = s.pins ∧ (withdrawWaiting n s).pending =
    s.pending := by
  unfold withdrawWaiting; dsimp only; simp

@[simp] theorem recordWriteBad_frame (n : Fin 32) (w : RecWrite) (timedOut : Bool) (s : State) :
    (recordWriteBad n w timedOut s).up = s.up ∧ (recordWriteBad n w timedOut s).cls = s.cls ∧
    (recordWriteBad n w timedOut s).log.configured = s.log.configured ∧ (recordWriteBad n w
    timedOut s).log.base = s.log.base ∧ (recordWriteBad n w timedOut s).log.capacity =
    s.log.capacity ∧ (recordWriteBad n w timedOut s).log.policy = s.log.policy ∧ (recordWriteBad n
    w timedOut s).log.stallLimit = s.log.stallLimit ∧ (recordWriteBad n w timedOut
    s).log.watermark = s.log.watermark ∧ (recordWriteBad n w timedOut s).log.allocated =
    s.log.allocated ∧ (recordWriteBad n w timedOut s).ckpt.nextNumber = s.ckpt.nextNumber ∧
    (recordWriteBad n w timedOut s).ckpt.generation = s.ckpt.generation ∧ (recordWriteBad n w
    timedOut s).ckpt.fence = s.ckpt.fence ∧ (recordWriteBad n w timedOut s).ckpt.ctrl =
    s.ckpt.ctrl ∧ (recordWriteBad n w timedOut s).ckpt.lineFlag = s.ckpt.lineFlag ∧
    (recordWriteBad n w timedOut s).ckpt.timerFlag = s.ckpt.timerFlag ∧ (recordWriteBad n w
    timedOut s).ckpt.cascadeFlag = s.ckpt.cascadeFlag ∧ (recordWriteBad n w timedOut
    s).ckpt.lineEnable = s.ckpt.lineEnable ∧ (recordWriteBad n w timedOut s).ckpt.autoTake =
    s.ckpt.autoTake ∧ (recordWriteBad n w timedOut s).ckpt.rolling = s.ckpt.rolling ∧
    (recordWriteBad n w timedOut s).ckpt.interval = s.ckpt.interval ∧ (recordWriteBad n w timedOut
    s).ckpt.intervalCount = s.ckpt.intervalCount ∧ (recordWriteBad n w timedOut
    s).ckpt.intervalMicros = s.ckpt.intervalMicros ∧ (recordWriteBad n w timedOut
    s).ckpt.ckptLevel = s.ckpt.ckptLevel ∧ (recordWriteBad n w timedOut s).restore = s.restore ∧
    (recordWriteBad n w timedOut s).down.restoreReady = s.down.restoreReady ∧ (recordWriteBad n w
    timedOut s).down.tags = s.down.tags ∧ (recordWriteBad n w timedOut s).down.channel =
    s.down.channel ∧ (recordWriteBad n w timedOut s).down.turn = s.down.turn ∧ (recordWriteBad n w
    timedOut s).down.used = s.down.used ∧ (recordWriteBad n w timedOut s).down.limit =
    s.down.limit ∧ (recordWriteBad n w timedOut s).down.wHost = s.down.wHost ∧ (recordWriteBad n w
    timedOut s).down.wPreserve = s.down.wPreserve ∧ (recordWriteBad n w timedOut s).down.wRestore
    = s.down.wRestore ∧ (recordWriteBad n w timedOut s).down.timeout = s.down.timeout ∧
    (recordWriteBad n w timedOut s).casc = s.casc ∧ (recordWriteBad n w timedOut s).mgmt.decoder =
    s.mgmt.decoder ∧ (recordWriteBad n w timedOut s).mgmt.mcsLow = s.mgmt.mcsLow ∧ (recordWriteBad
    n w timedOut s).mgmt.warmPending = s.mgmt.warmPending ∧ (recordWriteBad n w timedOut
    s).mgmt.response = s.mgmt.response ∧ (recordWriteBad n w timedOut s).mgmt.mask = s.mgmt.mask ∧
    (recordWriteBad n w timedOut s).mgmt.result = s.mgmt.result ∧ (recordWriteBad n w timedOut
    s).pins = s.pins ∧ (recordWriteBad n w timedOut s).pending = s.pending := by
  unfold recordWriteBad; dsimp only; (repeat' split) <;> simp

@[simp] theorem captureFreed_frame (n : Fin 32) (s : State) :
    (captureFreed n s).up = s.up ∧ (captureFreed n s).cls = s.cls ∧ (captureFreed n s).log = s.log
    ∧ (captureFreed n s).ckpt = s.ckpt ∧ (captureFreed n s).restore = s.restore ∧ (captureFreed n
    s).down.preserveReady = s.down.preserveReady ∧ (captureFreed n s).down.restoreReady =
    s.down.restoreReady ∧ (captureFreed n s).down.tags = s.down.tags ∧ (captureFreed n
    s).down.channel = s.down.channel ∧ (captureFreed n s).down.turn = s.down.turn ∧ (captureFreed
    n s).down.used = s.down.used ∧ (captureFreed n s).down.limit = s.down.limit ∧ (captureFreed n
    s).down.wHost = s.down.wHost ∧ (captureFreed n s).down.wPreserve = s.down.wPreserve ∧
    (captureFreed n s).down.wRestore = s.down.wRestore ∧ (captureFreed n s).down.timeout =
    s.down.timeout ∧ (captureFreed n s).casc = s.casc ∧ (captureFreed n s).mgmt.decoder =
    s.mgmt.decoder ∧ (captureFreed n s).mgmt.mcsLow = s.mgmt.mcsLow ∧ (captureFreed n
    s).mgmt.warmPending = s.mgmt.warmPending ∧ (captureFreed n s).mgmt.response = s.mgmt.response
    ∧ (captureFreed n s).mgmt.latches = s.mgmt.latches ∧ (captureFreed n s).mgmt.mask =
    s.mgmt.mask ∧ (captureFreed n s).mgmt.result = s.mgmt.result ∧ (captureFreed n s).pins =
    s.pins ∧ (captureFreed n s).pending = s.pending := by
  unfold captureFreed; simp

@[simp] theorem recordWriteFreed_frame (n : Fin 32) (s : State) :
    (recordWriteFreed n s).up = s.up ∧ (recordWriteFreed n s).cls = s.cls ∧ (recordWriteFreed n
    s).log.configured = s.log.configured ∧ (recordWriteFreed n s).log.base = s.log.base ∧
    (recordWriteFreed n s).log.capacity = s.log.capacity ∧ (recordWriteFreed n s).log.policy =
    s.log.policy ∧ (recordWriteFreed n s).log.stallLimit = s.log.stallLimit ∧ (recordWriteFreed n
    s).log.watermark = s.log.watermark ∧ (recordWriteFreed n s).log.allocated = s.log.allocated ∧
    (recordWriteFreed n s).log.waitList = s.log.waitList ∧ (recordWriteFreed n s).log.stallClock =
    s.log.stallClock ∧ (recordWriteFreed n s).ckpt.nextNumber = s.ckpt.nextNumber ∧
    (recordWriteFreed n s).ckpt.generation = s.ckpt.generation ∧ (recordWriteFreed n s).ckpt.fence
    = s.ckpt.fence ∧ (recordWriteFreed n s).ckpt.ctrl = s.ckpt.ctrl ∧ (recordWriteFreed n
    s).ckpt.lineFlag = s.ckpt.lineFlag ∧ (recordWriteFreed n s).ckpt.timerFlag = s.ckpt.timerFlag
    ∧ (recordWriteFreed n s).ckpt.cascadeFlag = s.ckpt.cascadeFlag ∧ (recordWriteFreed n
    s).ckpt.lineEnable = s.ckpt.lineEnable ∧ (recordWriteFreed n s).ckpt.autoTake =
    s.ckpt.autoTake ∧ (recordWriteFreed n s).ckpt.rolling = s.ckpt.rolling ∧ (recordWriteFreed n
    s).ckpt.interval = s.ckpt.interval ∧ (recordWriteFreed n s).ckpt.intervalCount =
    s.ckpt.intervalCount ∧ (recordWriteFreed n s).ckpt.intervalMicros = s.ckpt.intervalMicros ∧
    (recordWriteFreed n s).ckpt.ckptLevel = s.ckpt.ckptLevel ∧ (recordWriteFreed n s).restore =
    s.restore ∧ (recordWriteFreed n s).down.preserveReady = s.down.preserveReady ∧
    (recordWriteFreed n s).down.restoreReady = s.down.restoreReady ∧ (recordWriteFreed n
    s).down.tags = s.down.tags ∧ (recordWriteFreed n s).down.channel = s.down.channel ∧
    (recordWriteFreed n s).down.turn = s.down.turn ∧ (recordWriteFreed n s).down.used =
    s.down.used ∧ (recordWriteFreed n s).down.limit = s.down.limit ∧ (recordWriteFreed n
    s).down.wHost = s.down.wHost ∧ (recordWriteFreed n s).down.wPreserve = s.down.wPreserve ∧
    (recordWriteFreed n s).down.wRestore = s.down.wRestore ∧ (recordWriteFreed n s).down.timeout =
    s.down.timeout ∧ (recordWriteFreed n s).casc = s.casc ∧ (recordWriteFreed n s).mgmt.decoder =
    s.mgmt.decoder ∧ (recordWriteFreed n s).mgmt.mcsLow = s.mgmt.mcsLow ∧ (recordWriteFreed n
    s).mgmt.warmPending = s.mgmt.warmPending ∧ (recordWriteFreed n s).mgmt.response =
    s.mgmt.response ∧ (recordWriteFreed n s).mgmt.latches = s.mgmt.latches ∧ (recordWriteFreed n
    s).mgmt.mask = s.mgmt.mask ∧ (recordWriteFreed n s).mgmt.result = s.mgmt.result ∧
    (recordWriteFreed n s).pins = s.pins ∧ (recordWriteFreed n s).pending = s.pending := by
  unfold recordWriteFreed; simp

@[simp] theorem raiseFence_frame (s : State) :
    (raiseFence s).up = s.up ∧ (raiseFence s).cls = s.cls ∧ (raiseFence s).entries = s.entries ∧
    (raiseFence s).filter = s.filter ∧ (raiseFence s).log = s.log ∧ (raiseFence s).ckpt.stack =
    s.ckpt.stack ∧ (raiseFence s).ckpt.nextNumber = s.ckpt.nextNumber ∧ (raiseFence
    s).ckpt.generation = s.ckpt.generation ∧ (raiseFence s).ckpt.ctrl = s.ckpt.ctrl ∧ (raiseFence
    s).ckpt.lineFlag = s.ckpt.lineFlag ∧ (raiseFence s).ckpt.timerFlag = s.ckpt.timerFlag ∧
    (raiseFence s).ckpt.cascadeFlag = s.ckpt.cascadeFlag ∧ (raiseFence s).ckpt.lineEnable =
    s.ckpt.lineEnable ∧ (raiseFence s).ckpt.autoTake = s.ckpt.autoTake ∧ (raiseFence
    s).ckpt.rolling = s.ckpt.rolling ∧ (raiseFence s).ckpt.interval = s.ckpt.interval ∧
    (raiseFence s).ckpt.intervalCount = s.ckpt.intervalCount ∧ (raiseFence s).ckpt.intervalMicros
    = s.ckpt.intervalMicros ∧ (raiseFence s).ckpt.ckptLevel = s.ckpt.ckptLevel ∧ (raiseFence
    s).restore = s.restore ∧ (raiseFence s).down = s.down ∧ (raiseFence s).casc = s.casc ∧
    (raiseFence s).mgmt = s.mgmt ∧ (raiseFence s).pins = s.pins ∧ (raiseFence s).pending =
    s.pending := by
  simp [raiseFence]

@[simp] theorem lowerFence_frame (s : State) :
    (lowerFence s).up = s.up ∧ (lowerFence s).cls = s.cls ∧ (lowerFence s).entries = s.entries ∧
    (lowerFence s).filter = s.filter ∧ (lowerFence s).log = s.log ∧ (lowerFence s).ckpt.stack =
    s.ckpt.stack ∧ (lowerFence s).ckpt.nextNumber = s.ckpt.nextNumber ∧ (lowerFence
    s).ckpt.generation = s.ckpt.generation ∧ (lowerFence s).ckpt.ctrl = s.ckpt.ctrl ∧ (lowerFence
    s).ckpt.lineFlag = s.ckpt.lineFlag ∧ (lowerFence s).ckpt.timerFlag = s.ckpt.timerFlag ∧
    (lowerFence s).ckpt.cascadeFlag = s.ckpt.cascadeFlag ∧ (lowerFence s).ckpt.lineEnable =
    s.ckpt.lineEnable ∧ (lowerFence s).ckpt.autoTake = s.ckpt.autoTake ∧ (lowerFence
    s).ckpt.rolling = s.ckpt.rolling ∧ (lowerFence s).ckpt.interval = s.ckpt.interval ∧
    (lowerFence s).ckpt.intervalCount = s.ckpt.intervalCount ∧ (lowerFence s).ckpt.intervalMicros
    = s.ckpt.intervalMicros ∧ (lowerFence s).ckpt.ckptLevel = s.ckpt.ckptLevel ∧ (lowerFence
    s).restore = s.restore ∧ (lowerFence s).down = s.down ∧ (lowerFence s).casc = s.casc ∧
    (lowerFence s).mgmt = s.mgmt ∧ (lowerFence s).pins = s.pins ∧ (lowerFence s).pending =
    s.pending := by
  simp [lowerFence]

@[simp] theorem setCtrl_frame (k : Ctrl) (s : State) :
    (setCtrl k s).up = s.up ∧ (setCtrl k s).cls = s.cls ∧ (setCtrl k s).entries = s.entries ∧
    (setCtrl k s).filter = s.filter ∧ (setCtrl k s).log = s.log ∧ (setCtrl k s).ckpt.stack =
    s.ckpt.stack ∧ (setCtrl k s).ckpt.nextNumber = s.ckpt.nextNumber ∧ (setCtrl k
    s).ckpt.generation = s.ckpt.generation ∧ (setCtrl k s).ckpt.fence = s.ckpt.fence ∧ (setCtrl k
    s).ckpt.lineFlag = s.ckpt.lineFlag ∧ (setCtrl k s).ckpt.timerFlag = s.ckpt.timerFlag ∧
    (setCtrl k s).ckpt.cascadeFlag = s.ckpt.cascadeFlag ∧ (setCtrl k s).ckpt.lineEnable =
    s.ckpt.lineEnable ∧ (setCtrl k s).ckpt.autoTake = s.ckpt.autoTake ∧ (setCtrl k s).ckpt.rolling
    = s.ckpt.rolling ∧ (setCtrl k s).ckpt.interval = s.ckpt.interval ∧ (setCtrl k
    s).ckpt.intervalCount = s.ckpt.intervalCount ∧ (setCtrl k s).ckpt.intervalMicros =
    s.ckpt.intervalMicros ∧ (setCtrl k s).ckpt.ckptLevel = s.ckpt.ckptLevel ∧ (setCtrl k
    s).restore = s.restore ∧ (setCtrl k s).down = s.down ∧ (setCtrl k s).casc = s.casc ∧ (setCtrl
    k s).mgmt = s.mgmt ∧ (setCtrl k s).pins = s.pins ∧ (setCtrl k s).pending = s.pending := by
  simp [setCtrl]

@[simp] theorem standDown_frame (s : State) :
    (standDown s).up = s.up ∧ (standDown s).cls = s.cls ∧ (standDown s).entries = s.entries ∧
    (standDown s).filter = s.filter ∧ (standDown s).log = s.log ∧ (standDown s).ckpt.stack =
    s.ckpt.stack ∧ (standDown s).ckpt.nextNumber = s.ckpt.nextNumber ∧ (standDown
    s).ckpt.generation = s.ckpt.generation ∧ (standDown s).ckpt.lineFlag = s.ckpt.lineFlag ∧
    (standDown s).ckpt.timerFlag = s.ckpt.timerFlag ∧ (standDown s).ckpt.cascadeFlag =
    s.ckpt.cascadeFlag ∧ (standDown s).ckpt.lineEnable = s.ckpt.lineEnable ∧ (standDown
    s).ckpt.autoTake = s.ckpt.autoTake ∧ (standDown s).ckpt.rolling = s.ckpt.rolling ∧ (standDown
    s).ckpt.interval = s.ckpt.interval ∧ (standDown s).ckpt.intervalCount = s.ckpt.intervalCount ∧
    (standDown s).ckpt.intervalMicros = s.ckpt.intervalMicros ∧ (standDown s).ckpt.ckptLevel =
    s.ckpt.ckptLevel ∧ (standDown s).restore = s.restore ∧ (standDown s).down = s.down ∧
    (standDown s).casc = s.casc ∧ (standDown s).mgmt = s.mgmt ∧ (standDown s).pins = s.pins ∧
    (standDown s).pending = s.pending := by
  simp [standDown]

@[simp] theorem stepGeneration_frame (s : State) :
    (stepGeneration s).up = s.up ∧ (stepGeneration s).cls = s.cls ∧ (stepGeneration s).entries =
    s.entries ∧ (stepGeneration s).log = s.log ∧ (stepGeneration s).ckpt.stack = s.ckpt.stack ∧
    (stepGeneration s).ckpt.nextNumber = s.ckpt.nextNumber ∧ (stepGeneration s).ckpt.fence =
    s.ckpt.fence ∧ (stepGeneration s).ckpt.ctrl = s.ckpt.ctrl ∧ (stepGeneration s).ckpt.lineFlag =
    s.ckpt.lineFlag ∧ (stepGeneration s).ckpt.timerFlag = s.ckpt.timerFlag ∧ (stepGeneration
    s).ckpt.cascadeFlag = s.ckpt.cascadeFlag ∧ (stepGeneration s).ckpt.lineEnable =
    s.ckpt.lineEnable ∧ (stepGeneration s).ckpt.autoTake = s.ckpt.autoTake ∧ (stepGeneration
    s).ckpt.rolling = s.ckpt.rolling ∧ (stepGeneration s).ckpt.interval = s.ckpt.interval ∧
    (stepGeneration s).ckpt.intervalCount = s.ckpt.intervalCount ∧ (stepGeneration
    s).ckpt.intervalMicros = s.ckpt.intervalMicros ∧ (stepGeneration s).ckpt.ckptLevel =
    s.ckpt.ckptLevel ∧ (stepGeneration s).restore = s.restore ∧ (stepGeneration s).down = s.down ∧
    (stepGeneration s).casc = s.casc ∧ (stepGeneration s).mgmt = s.mgmt ∧ (stepGeneration s).pins
    = s.pins ∧ (stepGeneration s).pending = s.pending := by
  unfold stepGeneration; dsimp only; (repeat' split) <;> simp

@[simp] theorem pushCkpt_frame (number : CkptNumber) (source : Source) (s : State) :
    (pushCkpt number source s).up = s.up ∧ (pushCkpt number source s).cls = s.cls ∧ (pushCkpt
    number source s).entries = s.entries ∧ (pushCkpt number source s).log = s.log ∧ (pushCkpt
    number source s).ckpt.lineFlag = s.ckpt.lineFlag ∧ (pushCkpt number source s).ckpt.timerFlag =
    s.ckpt.timerFlag ∧ (pushCkpt number source s).ckpt.cascadeFlag = s.ckpt.cascadeFlag ∧
    (pushCkpt number source s).ckpt.lineEnable = s.ckpt.lineEnable ∧ (pushCkpt number source
    s).ckpt.autoTake = s.ckpt.autoTake ∧ (pushCkpt number source s).ckpt.rolling = s.ckpt.rolling
    ∧ (pushCkpt number source s).ckpt.interval = s.ckpt.interval ∧ (pushCkpt number source
    s).ckpt.intervalCount = s.ckpt.intervalCount ∧ (pushCkpt number source s).ckpt.intervalMicros
    = s.ckpt.intervalMicros ∧ (pushCkpt number source s).ckpt.ckptLevel = s.ckpt.ckptLevel ∧
    (pushCkpt number source s).restore = s.restore ∧ (pushCkpt number source s).down = s.down ∧
    (pushCkpt number source s).casc = s.casc ∧ (pushCkpt number source s).mgmt = s.mgmt ∧
    (pushCkpt number source s).pins = s.pins ∧ (pushCkpt number source s).pending = s.pending := by
  unfold pushCkpt; dsimp only; simp

@[simp] theorem releaseOldest_frame (n : Nat) (s : State) :
    (releaseOldest n s).up = s.up ∧ (releaseOldest n s).cls = s.cls ∧ (releaseOldest n s).filter =
    s.filter ∧ (releaseOldest n s).log.configured = s.log.configured ∧ (releaseOldest n
    s).log.base = s.log.base ∧ (releaseOldest n s).log.capacity = s.log.capacity ∧ (releaseOldest
    n s).log.policy = s.log.policy ∧ (releaseOldest n s).log.stallLimit = s.log.stallLimit ∧
    (releaseOldest n s).log.watermark = s.log.watermark ∧ (releaseOldest n s).log.head =
    s.log.head ∧ (releaseOldest n s).log.finished = s.log.finished ∧ (releaseOldest n
    s).ckpt.nextNumber = s.ckpt.nextNumber ∧ (releaseOldest n s).ckpt.generation =
    s.ckpt.generation ∧ (releaseOldest n s).ckpt.fence = s.ckpt.fence ∧ (releaseOldest n
    s).ckpt.ctrl = s.ckpt.ctrl ∧ (releaseOldest n s).ckpt.lineFlag = s.ckpt.lineFlag ∧
    (releaseOldest n s).ckpt.timerFlag = s.ckpt.timerFlag ∧ (releaseOldest n s).ckpt.cascadeFlag =
    s.ckpt.cascadeFlag ∧ (releaseOldest n s).ckpt.lineEnable = s.ckpt.lineEnable ∧ (releaseOldest
    n s).ckpt.autoTake = s.ckpt.autoTake ∧ (releaseOldest n s).ckpt.rolling = s.ckpt.rolling ∧
    (releaseOldest n s).ckpt.interval = s.ckpt.interval ∧ (releaseOldest n s).ckpt.intervalCount =
    s.ckpt.intervalCount ∧ (releaseOldest n s).ckpt.intervalMicros = s.ckpt.intervalMicros ∧
    (releaseOldest n s).ckpt.ckptLevel = s.ckpt.ckptLevel ∧ (releaseOldest n s).restore =
    s.restore ∧ (releaseOldest n s).down.restoreReady = s.down.restoreReady ∧ (releaseOldest n
    s).down.tags = s.down.tags ∧ (releaseOldest n s).down.channel = s.down.channel ∧
    (releaseOldest n s).down.turn = s.down.turn ∧ (releaseOldest n s).down.used = s.down.used ∧
    (releaseOldest n s).down.limit = s.down.limit ∧ (releaseOldest n s).down.wHost = s.down.wHost
    ∧ (releaseOldest n s).down.wPreserve = s.down.wPreserve ∧ (releaseOldest n s).down.wRestore =
    s.down.wRestore ∧ (releaseOldest n s).down.timeout = s.down.timeout ∧ (releaseOldest n s).casc
    = s.casc ∧ (releaseOldest n s).mgmt.decoder = s.mgmt.decoder ∧ (releaseOldest n s).mgmt.mcsLow
    = s.mgmt.mcsLow ∧ (releaseOldest n s).mgmt.warmPending = s.mgmt.warmPending ∧ (releaseOldest n
    s).mgmt.response = s.mgmt.response ∧ (releaseOldest n s).mgmt.mask = s.mgmt.mask ∧
    (releaseOldest n s).mgmt.counters = s.mgmt.counters ∧ (releaseOldest n s).mgmt.result =
    s.mgmt.result ∧ (releaseOldest n s).pins = s.pins ∧ (releaseOldest n s).pending = s.pending := by
  unfold releaseOldest; dsimp only; (repeat' split) <;> simp

@[simp] theorem truncateTo_frame (k : CkptNumber) (s : State) :
    (truncateTo k s).up = s.up ∧ (truncateTo k s).cls = s.cls ∧ (truncateTo k s).entries =
    s.entries ∧ (truncateTo k s).log.configured = s.log.configured ∧ (truncateTo k s).log.base =
    s.log.base ∧ (truncateTo k s).log.capacity = s.log.capacity ∧ (truncateTo k s).log.policy =
    s.log.policy ∧ (truncateTo k s).log.stallLimit = s.log.stallLimit ∧ (truncateTo k
    s).log.watermark = s.log.watermark ∧ (truncateTo k s).log.tail = s.log.tail ∧ (truncateTo k
    s).log.finished = s.log.finished ∧ (truncateTo k s).log.waitList = s.log.waitList ∧
    (truncateTo k s).log.stallClock = s.log.stallClock ∧ (truncateTo k s).ckpt.nextNumber =
    s.ckpt.nextNumber ∧ (truncateTo k s).ckpt.fence = s.ckpt.fence ∧ (truncateTo k s).ckpt.ctrl =
    s.ckpt.ctrl ∧ (truncateTo k s).ckpt.lineFlag = s.ckpt.lineFlag ∧ (truncateTo k
    s).ckpt.timerFlag = s.ckpt.timerFlag ∧ (truncateTo k s).ckpt.cascadeFlag = s.ckpt.cascadeFlag
    ∧ (truncateTo k s).ckpt.lineEnable = s.ckpt.lineEnable ∧ (truncateTo k s).ckpt.autoTake =
    s.ckpt.autoTake ∧ (truncateTo k s).ckpt.rolling = s.ckpt.rolling ∧ (truncateTo k
    s).ckpt.interval = s.ckpt.interval ∧ (truncateTo k s).ckpt.intervalCount =
    s.ckpt.intervalCount ∧ (truncateTo k s).ckpt.intervalMicros = s.ckpt.intervalMicros ∧
    (truncateTo k s).ckpt.ckptLevel = s.ckpt.ckptLevel ∧ (truncateTo k s).restore = s.restore ∧
    (truncateTo k s).down = s.down ∧ (truncateTo k s).casc = s.casc ∧ (truncateTo k s).mgmt =
    s.mgmt ∧ (truncateTo k s).pins = s.pins ∧ (truncateTo k s).pending = s.pending := by
  unfold truncateTo; dsimp only; (repeat' split) <;> simp

@[simp] theorem writeResult_frame (r : OpResult) (s : State) :
    (writeResult r s).up = s.up ∧ (writeResult r s).cls = s.cls ∧ (writeResult r s).entries =
    s.entries ∧ (writeResult r s).filter = s.filter ∧ (writeResult r s).log = s.log ∧ (writeResult
    r s).ckpt = s.ckpt ∧ (writeResult r s).restore = s.restore ∧ (writeResult r s).down = s.down ∧
    (writeResult r s).casc = s.casc ∧ (writeResult r s).mgmt.decoder = s.mgmt.decoder ∧
    (writeResult r s).mgmt.mcsLow = s.mgmt.mcsLow ∧ (writeResult r s).mgmt.warmPending =
    s.mgmt.warmPending ∧ (writeResult r s).mgmt.response = s.mgmt.response ∧ (writeResult r
    s).mgmt.latches = s.mgmt.latches ∧ (writeResult r s).mgmt.mask = s.mgmt.mask ∧ (writeResult r
    s).mgmt.counters = s.mgmt.counters ∧ (writeResult r s).pins = s.pins ∧ (writeResult r
    s).pending = s.pending := by
  simp [writeResult]

@[simp] theorem setSendList_frame (side : Side) (l : List Message) (s : State) :
    (setSendList side l s).up = s.up ∧ (setSendList side l s).cls = s.cls ∧ (setSendList side l
    s).entries = s.entries ∧ (setSendList side l s).filter = s.filter ∧ (setSendList side l s).log
    = s.log ∧ (setSendList side l s).ckpt = s.ckpt ∧ (setSendList side l s).restore = s.restore ∧
    (setSendList side l s).down = s.down ∧ (setSendList side l s).casc.role = s.casc.role ∧
    (setSendList side l s).casc.last = s.casc.last ∧ (setSendList side l s).casc.agreementLimit =
    s.casc.agreementLimit ∧ (setSendList side l s).casc.holdLimit = s.casc.holdLimit ∧
    (setSendList side l s).casc.opId = s.casc.opId ∧ (setSendList side l s).casc.agreement =
    s.casc.agreement ∧ (setSendList side l s).casc.abandoned = s.casc.abandoned ∧ (setSendList
    side l s).casc.lastRefusal = s.casc.lastRefusal ∧ (setSendList side l s).casc.badCount =
    s.casc.badCount ∧ (setSendList side l s).mgmt = s.mgmt ∧ (setSendList side l s).pins = s.pins
    ∧ (setSendList side l s).pending = s.pending := by
  unfold setSendList; (repeat' split) <;> simp

@[simp] theorem produceAsk_frame (src : AskSource) (side : Side) (s : State) :
    (produceAsk src side s).up = s.up ∧ (produceAsk src side s).cls = s.cls ∧ (produceAsk src side
    s).entries = s.entries ∧ (produceAsk src side s).filter = s.filter ∧ (produceAsk src side
    s).log = s.log ∧ (produceAsk src side s).ckpt = s.ckpt ∧ (produceAsk src side s).restore =
    s.restore ∧ (produceAsk src side s).down = s.down ∧ (produceAsk src side s).casc.role =
    s.casc.role ∧ (produceAsk src side s).casc.last = s.casc.last ∧ (produceAsk src side
    s).casc.agreementLimit = s.casc.agreementLimit ∧ (produceAsk src side s).casc.holdLimit =
    s.casc.holdLimit ∧ (produceAsk src side s).casc.opId = s.casc.opId ∧ (produceAsk src side
    s).casc.agreement = s.casc.agreement ∧ (produceAsk src side s).casc.abandoned =
    s.casc.abandoned ∧ (produceAsk src side s).casc.lastRefusal = s.casc.lastRefusal ∧ (produceAsk
    src side s).casc.badCount = s.casc.badCount ∧ (produceAsk src side s).mgmt.decoder =
    s.mgmt.decoder ∧ (produceAsk src side s).mgmt.mcsLow = s.mgmt.mcsLow ∧ (produceAsk src side
    s).mgmt.warmPending = s.mgmt.warmPending ∧ (produceAsk src side s).mgmt.response =
    s.mgmt.response ∧ (produceAsk src side s).mgmt.mask = s.mgmt.mask ∧ (produceAsk src side
    s).mgmt.result = s.mgmt.result ∧ (produceAsk src side s).pins = s.pins ∧ (produceAsk src side
    s).pending = s.pending := by
  unfold produceAsk; dsimp only; (repeat' split) <;> simp

@[simp] theorem produce_frame (m : Message) (side : Side) (s : State) :
    (produce m side s).up = s.up ∧ (produce m side s).cls = s.cls ∧ (produce m side s).entries =
    s.entries ∧ (produce m side s).filter = s.filter ∧ (produce m side s).log = s.log ∧ (produce m
    side s).ckpt = s.ckpt ∧ (produce m side s).restore = s.restore ∧ (produce m side s).down =
    s.down ∧ (produce m side s).casc.role = s.casc.role ∧ (produce m side s).casc.last =
    s.casc.last ∧ (produce m side s).casc.agreementLimit = s.casc.agreementLimit ∧ (produce m side
    s).casc.holdLimit = s.casc.holdLimit ∧ (produce m side s).casc.opId = s.casc.opId ∧ (produce m
    side s).casc.agreement = s.casc.agreement ∧ (produce m side s).casc.abandoned =
    s.casc.abandoned ∧ (produce m side s).casc.lastRefusal = s.casc.lastRefusal ∧ (produce m side
    s).casc.badCount = s.casc.badCount ∧ (produce m side s).mgmt.decoder = s.mgmt.decoder ∧
    (produce m side s).mgmt.mcsLow = s.mgmt.mcsLow ∧ (produce m side s).mgmt.warmPending =
    s.mgmt.warmPending ∧ (produce m side s).mgmt.response = s.mgmt.response ∧ (produce m side
    s).mgmt.mask = s.mgmt.mask ∧ (produce m side s).mgmt.counters = s.mgmt.counters ∧ (produce m
    side s).mgmt.result = s.mgmt.result ∧ (produce m side s).pins = s.pins ∧ (produce m side
    s).pending = s.pending := by
  unfold produce; dsimp only; (repeat' split) <;> simp

@[simp] theorem forwardDown_frame (m : Message) (s : State) :
    (forwardDown m s).up = s.up ∧ (forwardDown m s).cls = s.cls ∧ (forwardDown m s).entries =
    s.entries ∧ (forwardDown m s).filter = s.filter ∧ (forwardDown m s).log = s.log ∧ (forwardDown
    m s).ckpt = s.ckpt ∧ (forwardDown m s).restore = s.restore ∧ (forwardDown m s).down = s.down ∧
    (forwardDown m s).casc.role = s.casc.role ∧ (forwardDown m s).casc.last = s.casc.last ∧
    (forwardDown m s).casc.agreementLimit = s.casc.agreementLimit ∧ (forwardDown m
    s).casc.holdLimit = s.casc.holdLimit ∧ (forwardDown m s).casc.opId = s.casc.opId ∧
    (forwardDown m s).casc.agreement = s.casc.agreement ∧ (forwardDown m s).casc.abandoned =
    s.casc.abandoned ∧ (forwardDown m s).casc.lastRefusal = s.casc.lastRefusal ∧ (forwardDown m
    s).casc.badCount = s.casc.badCount ∧ (forwardDown m s).mgmt.decoder = s.mgmt.decoder ∧
    (forwardDown m s).mgmt.mcsLow = s.mgmt.mcsLow ∧ (forwardDown m s).mgmt.warmPending =
    s.mgmt.warmPending ∧ (forwardDown m s).mgmt.response = s.mgmt.response ∧ (forwardDown m
    s).mgmt.mask = s.mgmt.mask ∧ (forwardDown m s).mgmt.counters = s.mgmt.counters ∧ (forwardDown
    m s).mgmt.result = s.mgmt.result ∧ (forwardDown m s).pins = s.pins ∧ (forwardDown m s).pending
    = s.pending := by
  unfold forwardDown; (repeat' split) <;> simp

@[simp] theorem modAgreement_frame (f : Agreement → Agreement) (s : State) :
    (modAgreement f s).up = s.up ∧ (modAgreement f s).cls = s.cls ∧ (modAgreement f s).entries =
    s.entries ∧ (modAgreement f s).filter = s.filter ∧ (modAgreement f s).log = s.log ∧
    (modAgreement f s).ckpt = s.ckpt ∧ (modAgreement f s).restore = s.restore ∧ (modAgreement f
    s).down = s.down ∧ (modAgreement f s).casc.role = s.casc.role ∧ (modAgreement f s).casc.last =
    s.casc.last ∧ (modAgreement f s).casc.agreementLimit = s.casc.agreementLimit ∧ (modAgreement f
    s).casc.holdLimit = s.casc.holdLimit ∧ (modAgreement f s).casc.opId = s.casc.opId ∧
    (modAgreement f s).casc.abandoned = s.casc.abandoned ∧ (modAgreement f s).casc.lastRefusal =
    s.casc.lastRefusal ∧ (modAgreement f s).casc.badCount = s.casc.badCount ∧ (modAgreement f
    s).casc.upList = s.casc.upList ∧ (modAgreement f s).casc.downList = s.casc.downList ∧
    (modAgreement f s).mgmt = s.mgmt ∧ (modAgreement f s).pins = s.pins ∧ (modAgreement f
    s).pending = s.pending := by
  simp [modAgreement]

@[simp] theorem dropAgreement_frame (s : State) :
    (dropAgreement s).up = s.up ∧ (dropAgreement s).cls = s.cls ∧ (dropAgreement s).entries =
    s.entries ∧ (dropAgreement s).filter = s.filter ∧ (dropAgreement s).log = s.log ∧
    (dropAgreement s).ckpt = s.ckpt ∧ (dropAgreement s).restore = s.restore ∧ (dropAgreement
    s).down = s.down ∧ (dropAgreement s).casc.role = s.casc.role ∧ (dropAgreement s).casc.last =
    s.casc.last ∧ (dropAgreement s).casc.agreementLimit = s.casc.agreementLimit ∧ (dropAgreement
    s).casc.holdLimit = s.casc.holdLimit ∧ (dropAgreement s).casc.opId = s.casc.opId ∧
    (dropAgreement s).casc.abandoned = s.casc.abandoned ∧ (dropAgreement s).casc.lastRefusal =
    s.casc.lastRefusal ∧ (dropAgreement s).casc.badCount = s.casc.badCount ∧ (dropAgreement
    s).casc.upList = s.casc.upList ∧ (dropAgreement s).casc.downList = s.casc.downList ∧
    (dropAgreement s).mgmt = s.mgmt ∧ (dropAgreement s).pins = s.pins ∧ (dropAgreement s).pending
    = s.pending := by
  simp [dropAgreement]

@[simp] theorem setAbandoned_frame (id : OpId) (s : State) :
    (setAbandoned id s).up = s.up ∧ (setAbandoned id s).cls = s.cls ∧ (setAbandoned id s).entries
    = s.entries ∧ (setAbandoned id s).filter = s.filter ∧ (setAbandoned id s).log = s.log ∧
    (setAbandoned id s).ckpt = s.ckpt ∧ (setAbandoned id s).restore = s.restore ∧ (setAbandoned id
    s).down = s.down ∧ (setAbandoned id s).casc.role = s.casc.role ∧ (setAbandoned id s).casc.last
    = s.casc.last ∧ (setAbandoned id s).casc.agreementLimit = s.casc.agreementLimit ∧
    (setAbandoned id s).casc.holdLimit = s.casc.holdLimit ∧ (setAbandoned id s).casc.opId =
    s.casc.opId ∧ (setAbandoned id s).casc.agreement = s.casc.agreement ∧ (setAbandoned id
    s).casc.lastRefusal = s.casc.lastRefusal ∧ (setAbandoned id s).casc.badCount = s.casc.badCount
    ∧ (setAbandoned id s).casc.upList = s.casc.upList ∧ (setAbandoned id s).casc.downList =
    s.casc.downList ∧ (setAbandoned id s).mgmt = s.mgmt ∧ (setAbandoned id s).pins = s.pins ∧
    (setAbandoned id s).pending = s.pending := by
  simp [setAbandoned]

@[simp] theorem startAgreement_frame (goal : Goal) (source : Source) (s : State) :
    (startAgreement goal source s).up = s.up ∧ (startAgreement goal source s).cls = s.cls ∧
    (startAgreement goal source s).entries = s.entries ∧ (startAgreement goal source s).filter =
    s.filter ∧ (startAgreement goal source s).log = s.log ∧ (startAgreement goal source s).ckpt =
    s.ckpt ∧ (startAgreement goal source s).restore = s.restore ∧ (startAgreement goal source
    s).down = s.down ∧ (startAgreement goal source s).casc.role = s.casc.role ∧ (startAgreement
    goal source s).casc.last = s.casc.last ∧ (startAgreement goal source s).casc.agreementLimit =
    s.casc.agreementLimit ∧ (startAgreement goal source s).casc.holdLimit = s.casc.holdLimit ∧
    (startAgreement goal source s).casc.abandoned = s.casc.abandoned ∧ (startAgreement goal source
    s).casc.lastRefusal = s.casc.lastRefusal ∧ (startAgreement goal source s).casc.badCount =
    s.casc.badCount ∧ (startAgreement goal source s).mgmt.decoder = s.mgmt.decoder ∧
    (startAgreement goal source s).mgmt.mcsLow = s.mgmt.mcsLow ∧ (startAgreement goal source
    s).mgmt.warmPending = s.mgmt.warmPending ∧ (startAgreement goal source s).mgmt.response =
    s.mgmt.response ∧ (startAgreement goal source s).mgmt.mask = s.mgmt.mask ∧ (startAgreement
    goal source s).mgmt.counters = s.mgmt.counters ∧ (startAgreement goal source s).mgmt.result =
    s.mgmt.result ∧ (startAgreement goal source s).pins = s.pins ∧ (startAgreement goal source
    s).pending = s.pending := by
  unfold startAgreement; dsimp only; simp

@[simp] theorem agreeIfLeader_frame (goal : Goal) (source : Source) (s : State) :
    (agreeIfLeader goal source s).up = s.up ∧ (agreeIfLeader goal source s).cls = s.cls ∧
    (agreeIfLeader goal source s).entries = s.entries ∧ (agreeIfLeader goal source s).filter =
    s.filter ∧ (agreeIfLeader goal source s).log = s.log ∧ (agreeIfLeader goal source s).ckpt =
    s.ckpt ∧ (agreeIfLeader goal source s).restore = s.restore ∧ (agreeIfLeader goal source
    s).down = s.down ∧ (agreeIfLeader goal source s).casc.role = s.casc.role ∧ (agreeIfLeader goal
    source s).casc.last = s.casc.last ∧ (agreeIfLeader goal source s).casc.agreementLimit =
    s.casc.agreementLimit ∧ (agreeIfLeader goal source s).casc.holdLimit = s.casc.holdLimit ∧
    (agreeIfLeader goal source s).casc.abandoned = s.casc.abandoned ∧ (agreeIfLeader goal source
    s).casc.lastRefusal = s.casc.lastRefusal ∧ (agreeIfLeader goal source s).casc.badCount =
    s.casc.badCount ∧ (agreeIfLeader goal source s).mgmt.decoder = s.mgmt.decoder ∧ (agreeIfLeader
    goal source s).mgmt.mcsLow = s.mgmt.mcsLow ∧ (agreeIfLeader goal source s).mgmt.warmPending =
    s.mgmt.warmPending ∧ (agreeIfLeader goal source s).mgmt.response = s.mgmt.response ∧
    (agreeIfLeader goal source s).mgmt.mask = s.mgmt.mask ∧ (agreeIfLeader goal source
    s).mgmt.counters = s.mgmt.counters ∧ (agreeIfLeader goal source s).mgmt.result = s.mgmt.result
    ∧ (agreeIfLeader goal source s).pins = s.pins ∧ (agreeIfLeader goal source s).pending =
    s.pending := by
  unfold agreeIfLeader; (repeat' split) <;> simp

@[simp] theorem endBeforeGo_frame (a : Agreement) (o : ResultOutcome) (s : State) :
    (endBeforeGo a o s).up = s.up ∧ (endBeforeGo a o s).cls = s.cls ∧ (endBeforeGo a o s).entries
    = s.entries ∧ (endBeforeGo a o s).filter = s.filter ∧ (endBeforeGo a o s).log = s.log ∧
    (endBeforeGo a o s).ckpt.stack = s.ckpt.stack ∧ (endBeforeGo a o s).ckpt.nextNumber =
    s.ckpt.nextNumber ∧ (endBeforeGo a o s).ckpt.generation = s.ckpt.generation ∧ (endBeforeGo a o
    s).ckpt.lineFlag = s.ckpt.lineFlag ∧ (endBeforeGo a o s).ckpt.timerFlag = s.ckpt.timerFlag ∧
    (endBeforeGo a o s).ckpt.cascadeFlag = s.ckpt.cascadeFlag ∧ (endBeforeGo a o
    s).ckpt.lineEnable = s.ckpt.lineEnable ∧ (endBeforeGo a o s).ckpt.autoTake = s.ckpt.autoTake ∧
    (endBeforeGo a o s).ckpt.rolling = s.ckpt.rolling ∧ (endBeforeGo a o s).ckpt.interval =
    s.ckpt.interval ∧ (endBeforeGo a o s).ckpt.intervalCount = s.ckpt.intervalCount ∧ (endBeforeGo
    a o s).ckpt.intervalMicros = s.ckpt.intervalMicros ∧ (endBeforeGo a o s).ckpt.ckptLevel =
    s.ckpt.ckptLevel ∧ (endBeforeGo a o s).restore = s.restore ∧ (endBeforeGo a o s).down = s.down
    ∧ (endBeforeGo a o s).casc.role = s.casc.role ∧ (endBeforeGo a o s).casc.last = s.casc.last ∧
    (endBeforeGo a o s).casc.agreementLimit = s.casc.agreementLimit ∧ (endBeforeGo a o
    s).casc.holdLimit = s.casc.holdLimit ∧ (endBeforeGo a o s).casc.opId = s.casc.opId ∧
    (endBeforeGo a o s).casc.abandoned = s.casc.abandoned ∧ (endBeforeGo a o s).casc.lastRefusal =
    s.casc.lastRefusal ∧ (endBeforeGo a o s).casc.badCount = s.casc.badCount ∧ (endBeforeGo a o
    s).casc.upList = s.casc.upList ∧ (endBeforeGo a o s).casc.downList = s.casc.downList ∧
    (endBeforeGo a o s).mgmt.decoder = s.mgmt.decoder ∧ (endBeforeGo a o s).mgmt.mcsLow =
    s.mgmt.mcsLow ∧ (endBeforeGo a o s).mgmt.warmPending = s.mgmt.warmPending ∧ (endBeforeGo a o
    s).mgmt.response = s.mgmt.response ∧ (endBeforeGo a o s).mgmt.mask = s.mgmt.mask ∧
    (endBeforeGo a o s).mgmt.counters = s.mgmt.counters ∧ (endBeforeGo a o s).pins = s.pins ∧
    (endBeforeGo a o s).pending = s.pending := by
  unfold endBeforeGo; dsimp only; simp

@[simp] theorem enterHeld_frame (r : HeldReason) (s : State) :
    (enterHeld r s).up = s.up ∧ (enterHeld r s).cls = s.cls ∧ (enterHeld r s).entries = s.entries
    ∧ (enterHeld r s).filter = s.filter ∧ (enterHeld r s).log = s.log ∧ (enterHeld r s).ckpt.stack
    = s.ckpt.stack ∧ (enterHeld r s).ckpt.nextNumber = s.ckpt.nextNumber ∧ (enterHeld r
    s).ckpt.generation = s.ckpt.generation ∧ (enterHeld r s).ckpt.fence = s.ckpt.fence ∧
    (enterHeld r s).ckpt.lineFlag = s.ckpt.lineFlag ∧ (enterHeld r s).ckpt.timerFlag =
    s.ckpt.timerFlag ∧ (enterHeld r s).ckpt.cascadeFlag = s.ckpt.cascadeFlag ∧ (enterHeld r
    s).ckpt.lineEnable = s.ckpt.lineEnable ∧ (enterHeld r s).ckpt.autoTake = s.ckpt.autoTake ∧
    (enterHeld r s).ckpt.rolling = s.ckpt.rolling ∧ (enterHeld r s).ckpt.interval =
    s.ckpt.interval ∧ (enterHeld r s).ckpt.intervalCount = s.ckpt.intervalCount ∧ (enterHeld r
    s).ckpt.intervalMicros = s.ckpt.intervalMicros ∧ (enterHeld r s).ckpt.ckptLevel =
    s.ckpt.ckptLevel ∧ (enterHeld r s).restore = s.restore ∧ (enterHeld r s).down = s.down ∧
    (enterHeld r s).casc = s.casc ∧ (enterHeld r s).mgmt.decoder = s.mgmt.decoder ∧ (enterHeld r
    s).mgmt.mcsLow = s.mgmt.mcsLow ∧ (enterHeld r s).mgmt.warmPending = s.mgmt.warmPending ∧
    (enterHeld r s).mgmt.response = s.mgmt.response ∧ (enterHeld r s).mgmt.mask = s.mgmt.mask ∧
    (enterHeld r s).mgmt.counters = s.mgmt.counters ∧ (enterHeld r s).mgmt.result = s.mgmt.result
    ∧ (enterHeld r s).pins = s.pins ∧ (enterHeld r s).pending = s.pending := by
  unfold enterHeld; simp

@[simp] theorem addUnrestored_frame (line : Nat) (s : State) :
    (addUnrestored line s).up = s.up ∧ (addUnrestored line s).cls = s.cls ∧ (addUnrestored line
    s).entries = s.entries ∧ (addUnrestored line s).filter = s.filter ∧ (addUnrestored line s).log
    = s.log ∧ (addUnrestored line s).ckpt = s.ckpt ∧ (addUnrestored line s).restore.walk =
    s.restore.walk ∧ (addUnrestored line s).down = s.down ∧ (addUnrestored line s).casc = s.casc ∧
    (addUnrestored line s).mgmt = s.mgmt ∧ (addUnrestored line s).pins = s.pins ∧ (addUnrestored
    line s).pending = s.pending := by
  simp only [addUnrestored]; refine ⟨rfl, rfl, rfl, rfl, rfl, rfl, ?_, rfl, rfl, rfl, rfl, rfl⟩
  simp only [State.onRestore_restore]; split_ifs <;> rfl

@[simp] theorem clearUnrestored_frame (s : State) :
    (clearUnrestored s).up = s.up ∧ (clearUnrestored s).cls = s.cls ∧ (clearUnrestored s).entries
    = s.entries ∧ (clearUnrestored s).filter = s.filter ∧ (clearUnrestored s).log = s.log ∧
    (clearUnrestored s).ckpt = s.ckpt ∧ (clearUnrestored s).restore.walk = s.restore.walk ∧
    (clearUnrestored s).down = s.down ∧ (clearUnrestored s).casc = s.casc ∧ (clearUnrestored
    s).mgmt = s.mgmt ∧ (clearUnrestored s).pins = s.pins ∧ (clearUnrestored s).pending = s.pending := by
  simp [clearUnrestored]

@[simp] theorem reportWalk_frame (w : Walk) (o : DoneOutcome) (s : State) :
    (reportWalk w o s).up = s.up ∧ (reportWalk w o s).cls = s.cls ∧ (reportWalk w o s).entries =
    s.entries ∧ (reportWalk w o s).filter = s.filter ∧ (reportWalk w o s).log = s.log ∧
    (reportWalk w o s).ckpt = s.ckpt ∧ (reportWalk w o s).restore = s.restore ∧ (reportWalk w o
    s).down = s.down ∧ (reportWalk w o s).casc.role = s.casc.role ∧ (reportWalk w o s).casc.last =
    s.casc.last ∧ (reportWalk w o s).casc.agreementLimit = s.casc.agreementLimit ∧ (reportWalk w o
    s).casc.holdLimit = s.casc.holdLimit ∧ (reportWalk w o s).casc.opId = s.casc.opId ∧
    (reportWalk w o s).casc.abandoned = s.casc.abandoned ∧ (reportWalk w o s).casc.lastRefusal =
    s.casc.lastRefusal ∧ (reportWalk w o s).casc.badCount = s.casc.badCount ∧ (reportWalk w o
    s).casc.upList = s.casc.upList ∧ (reportWalk w o s).casc.downList = s.casc.downList ∧
    (reportWalk w o s).mgmt.decoder = s.mgmt.decoder ∧ (reportWalk w o s).mgmt.mcsLow =
    s.mgmt.mcsLow ∧ (reportWalk w o s).mgmt.warmPending = s.mgmt.warmPending ∧ (reportWalk w o
    s).mgmt.response = s.mgmt.response ∧ (reportWalk w o s).mgmt.mask = s.mgmt.mask ∧ (reportWalk
    w o s).mgmt.counters = s.mgmt.counters ∧ (reportWalk w o s).pins = s.pins ∧ (reportWalk w o
    s).pending = s.pending := by
  unfold reportWalk; dsimp only; (repeat' split) <;> simp

@[simp] theorem finishWalk_frame (w : Walk) (s : State) :
    (finishWalk w s).up = s.up ∧ (finishWalk w s).cls = s.cls ∧ (finishWalk w s).log.configured =
    s.log.configured ∧ (finishWalk w s).log.base = s.log.base ∧ (finishWalk w s).log.capacity =
    s.log.capacity ∧ (finishWalk w s).log.policy = s.log.policy ∧ (finishWalk w s).log.stallLimit
    = s.log.stallLimit ∧ (finishWalk w s).log.watermark = s.log.watermark ∧ (finishWalk w
    s).log.tail = s.log.tail ∧ (finishWalk w s).log.finished = s.log.finished ∧ (finishWalk w
    s).ckpt.nextNumber = s.ckpt.nextNumber ∧ (finishWalk w s).ckpt.lineFlag = s.ckpt.lineFlag ∧
    (finishWalk w s).ckpt.timerFlag = s.ckpt.timerFlag ∧ (finishWalk w s).ckpt.cascadeFlag =
    s.ckpt.cascadeFlag ∧ (finishWalk w s).ckpt.lineEnable = s.ckpt.lineEnable ∧ (finishWalk w
    s).ckpt.autoTake = s.ckpt.autoTake ∧ (finishWalk w s).ckpt.rolling = s.ckpt.rolling ∧
    (finishWalk w s).ckpt.interval = s.ckpt.interval ∧ (finishWalk w s).ckpt.intervalCount =
    s.ckpt.intervalCount ∧ (finishWalk w s).ckpt.intervalMicros = s.ckpt.intervalMicros ∧
    (finishWalk w s).ckpt.ckptLevel = s.ckpt.ckptLevel ∧ (finishWalk w s).restore.unrestored =
    s.restore.unrestored ∧ (finishWalk w s).restore.overflow = s.restore.overflow ∧ (finishWalk w
    s).down.preserveReady = s.down.preserveReady ∧ (finishWalk w s).down.restoreReady =
    s.down.restoreReady ∧ (finishWalk w s).down.tags = s.down.tags ∧ (finishWalk w s).down.channel
    = s.down.channel ∧ (finishWalk w s).down.turn = s.down.turn ∧ (finishWalk w s).down.used =
    s.down.used ∧ (finishWalk w s).down.limit = s.down.limit ∧ (finishWalk w s).down.wHost =
    s.down.wHost ∧ (finishWalk w s).down.wPreserve = s.down.wPreserve ∧ (finishWalk w
    s).down.wRestore = s.down.wRestore ∧ (finishWalk w s).down.timeout = s.down.timeout ∧
    (finishWalk w s).casc.role = s.casc.role ∧ (finishWalk w s).casc.last = s.casc.last ∧
    (finishWalk w s).casc.agreementLimit = s.casc.agreementLimit ∧ (finishWalk w s).casc.holdLimit
    = s.casc.holdLimit ∧ (finishWalk w s).casc.opId = s.casc.opId ∧ (finishWalk w
    s).casc.abandoned = s.casc.abandoned ∧ (finishWalk w s).casc.lastRefusal = s.casc.lastRefusal
    ∧ (finishWalk w s).casc.badCount = s.casc.badCount ∧ (finishWalk w s).casc.upList =
    s.casc.upList ∧ (finishWalk w s).casc.downList = s.casc.downList ∧ (finishWalk w
    s).mgmt.decoder = s.mgmt.decoder ∧ (finishWalk w s).mgmt.mcsLow = s.mgmt.mcsLow ∧ (finishWalk
    w s).mgmt.warmPending = s.mgmt.warmPending ∧ (finishWalk w s).mgmt.response = s.mgmt.response
    ∧ (finishWalk w s).mgmt.mask = s.mgmt.mask ∧ (finishWalk w s).mgmt.counters = s.mgmt.counters
    ∧ (finishWalk w s).pins = s.pins ∧ (finishWalk w s).pending = s.pending := by
  unfold finishWalk; dsimp only; (repeat' split) <;> simp

@[simp] theorem setWalk_frame (w : Walk) (s : State) :
    (setWalk w s).up = s.up ∧ (setWalk w s).cls = s.cls ∧ (setWalk w s).entries = s.entries ∧
    (setWalk w s).filter = s.filter ∧ (setWalk w s).log = s.log ∧ (setWalk w s).ckpt = s.ckpt ∧
    (setWalk w s).restore.unrestored = s.restore.unrestored ∧ (setWalk w s).restore.overflow =
    s.restore.overflow ∧ (setWalk w s).down = s.down ∧ (setWalk w s).casc = s.casc ∧ (setWalk w
    s).mgmt = s.mgmt ∧ (setWalk w s).pins = s.pins ∧ (setWalk w s).pending = s.pending := by
  simp [setWalk]

@[simp] theorem requestHeader_frame (w : Walk) (s : State) :
    (requestHeader w s).up = s.up ∧ (requestHeader w s).cls = s.cls ∧ (requestHeader w s).entries
    = s.entries ∧ (requestHeader w s).filter = s.filter ∧ (requestHeader w s).log = s.log ∧
    (requestHeader w s).ckpt = s.ckpt ∧ (requestHeader w s).restore.unrestored =
    s.restore.unrestored ∧ (requestHeader w s).restore.overflow = s.restore.overflow ∧
    (requestHeader w s).down.hostReady = s.down.hostReady ∧ (requestHeader w s).down.preserveReady
    = s.down.preserveReady ∧ (requestHeader w s).down.tags = s.down.tags ∧ (requestHeader w
    s).down.channel = s.down.channel ∧ (requestHeader w s).down.turn = s.down.turn ∧
    (requestHeader w s).down.used = s.down.used ∧ (requestHeader w s).down.limit = s.down.limit ∧
    (requestHeader w s).down.wHost = s.down.wHost ∧ (requestHeader w s).down.wPreserve =
    s.down.wPreserve ∧ (requestHeader w s).down.wRestore = s.down.wRestore ∧ (requestHeader w
    s).down.timeout = s.down.timeout ∧ (requestHeader w s).casc = s.casc ∧ (requestHeader w
    s).mgmt = s.mgmt ∧ (requestHeader w s).pins = s.pins ∧ (requestHeader w s).pending = s.pending := by
  unfold requestHeader; simp

@[simp] theorem startWalk_frame (k : CkptNumber) (s : State) :
    (startWalk k s).up = s.up ∧ (startWalk k s).cls = s.cls ∧ (startWalk k s).log.configured =
    s.log.configured ∧ (startWalk k s).log.base = s.log.base ∧ (startWalk k s).log.capacity =
    s.log.capacity ∧ (startWalk k s).log.policy = s.log.policy ∧ (startWalk k s).log.stallLimit =
    s.log.stallLimit ∧ (startWalk k s).log.watermark = s.log.watermark ∧ (startWalk k s).log.tail
    = s.log.tail ∧ (startWalk k s).log.finished = s.log.finished ∧ (startWalk k s).ckpt.nextNumber
    = s.ckpt.nextNumber ∧ (startWalk k s).ckpt.lineFlag = s.ckpt.lineFlag ∧ (startWalk k
    s).ckpt.timerFlag = s.ckpt.timerFlag ∧ (startWalk k s).ckpt.cascadeFlag = s.ckpt.cascadeFlag ∧
    (startWalk k s).ckpt.lineEnable = s.ckpt.lineEnable ∧ (startWalk k s).ckpt.autoTake =
    s.ckpt.autoTake ∧ (startWalk k s).ckpt.rolling = s.ckpt.rolling ∧ (startWalk k
    s).ckpt.interval = s.ckpt.interval ∧ (startWalk k s).ckpt.intervalCount = s.ckpt.intervalCount
    ∧ (startWalk k s).ckpt.intervalMicros = s.ckpt.intervalMicros ∧ (startWalk k s).ckpt.ckptLevel
    = s.ckpt.ckptLevel ∧ (startWalk k s).restore.unrestored = s.restore.unrestored ∧ (startWalk k
    s).restore.overflow = s.restore.overflow ∧ (startWalk k s).down.preserveReady =
    s.down.preserveReady ∧ (startWalk k s).down.tags = s.down.tags ∧ (startWalk k s).down.channel
    = s.down.channel ∧ (startWalk k s).down.turn = s.down.turn ∧ (startWalk k s).down.used =
    s.down.used ∧ (startWalk k s).down.limit = s.down.limit ∧ (startWalk k s).down.wHost =
    s.down.wHost ∧ (startWalk k s).down.wPreserve = s.down.wPreserve ∧ (startWalk k
    s).down.wRestore = s.down.wRestore ∧ (startWalk k s).down.timeout = s.down.timeout ∧
    (startWalk k s).casc.role = s.casc.role ∧ (startWalk k s).casc.last = s.casc.last ∧ (startWalk
    k s).casc.agreementLimit = s.casc.agreementLimit ∧ (startWalk k s).casc.holdLimit =
    s.casc.holdLimit ∧ (startWalk k s).casc.opId = s.casc.opId ∧ (startWalk k s).casc.abandoned =
    s.casc.abandoned ∧ (startWalk k s).casc.lastRefusal = s.casc.lastRefusal ∧ (startWalk k
    s).casc.badCount = s.casc.badCount ∧ (startWalk k s).casc.upList = s.casc.upList ∧ (startWalk
    k s).casc.downList = s.casc.downList ∧ (startWalk k s).mgmt.decoder = s.mgmt.decoder ∧
    (startWalk k s).mgmt.mcsLow = s.mgmt.mcsLow ∧ (startWalk k s).mgmt.warmPending =
    s.mgmt.warmPending ∧ (startWalk k s).mgmt.response = s.mgmt.response ∧ (startWalk k
    s).mgmt.mask = s.mgmt.mask ∧ (startWalk k s).mgmt.counters = s.mgmt.counters ∧ (startWalk k
    s).pins = s.pins ∧ (startWalk k s).pending = s.pending := by
  unfold startWalk; dsimp only; (repeat' split) <;> simp

@[simp] theorem moveOn_frame (w : Walk) (s : State) :
    (moveOn w s).up = s.up ∧ (moveOn w s).cls = s.cls ∧ (moveOn w s).log.configured =
    s.log.configured ∧ (moveOn w s).log.base = s.log.base ∧ (moveOn w s).log.capacity =
    s.log.capacity ∧ (moveOn w s).log.policy = s.log.policy ∧ (moveOn w s).log.stallLimit =
    s.log.stallLimit ∧ (moveOn w s).log.watermark = s.log.watermark ∧ (moveOn w s).log.tail =
    s.log.tail ∧ (moveOn w s).log.finished = s.log.finished ∧ (moveOn w s).ckpt.nextNumber =
    s.ckpt.nextNumber ∧ (moveOn w s).ckpt.lineFlag = s.ckpt.lineFlag ∧ (moveOn w s).ckpt.timerFlag
    = s.ckpt.timerFlag ∧ (moveOn w s).ckpt.cascadeFlag = s.ckpt.cascadeFlag ∧ (moveOn w
    s).ckpt.lineEnable = s.ckpt.lineEnable ∧ (moveOn w s).ckpt.autoTake = s.ckpt.autoTake ∧
    (moveOn w s).ckpt.rolling = s.ckpt.rolling ∧ (moveOn w s).ckpt.interval = s.ckpt.interval ∧
    (moveOn w s).ckpt.intervalCount = s.ckpt.intervalCount ∧ (moveOn w s).ckpt.intervalMicros =
    s.ckpt.intervalMicros ∧ (moveOn w s).ckpt.ckptLevel = s.ckpt.ckptLevel ∧ (moveOn w
    s).restore.unrestored = s.restore.unrestored ∧ (moveOn w s).restore.overflow =
    s.restore.overflow ∧ (moveOn w s).down.preserveReady = s.down.preserveReady ∧ (moveOn w
    s).down.tags = s.down.tags ∧ (moveOn w s).down.channel = s.down.channel ∧ (moveOn w
    s).down.turn = s.down.turn ∧ (moveOn w s).down.used = s.down.used ∧ (moveOn w s).down.limit =
    s.down.limit ∧ (moveOn w s).down.wHost = s.down.wHost ∧ (moveOn w s).down.wPreserve =
    s.down.wPreserve ∧ (moveOn w s).down.wRestore = s.down.wRestore ∧ (moveOn w s).down.timeout =
    s.down.timeout ∧ (moveOn w s).casc.role = s.casc.role ∧ (moveOn w s).casc.last = s.casc.last ∧
    (moveOn w s).casc.agreementLimit = s.casc.agreementLimit ∧ (moveOn w s).casc.holdLimit =
    s.casc.holdLimit ∧ (moveOn w s).casc.opId = s.casc.opId ∧ (moveOn w s).casc.abandoned =
    s.casc.abandoned ∧ (moveOn w s).casc.lastRefusal = s.casc.lastRefusal ∧ (moveOn w
    s).casc.badCount = s.casc.badCount ∧ (moveOn w s).casc.upList = s.casc.upList ∧ (moveOn w
    s).casc.downList = s.casc.downList ∧ (moveOn w s).mgmt.decoder = s.mgmt.decoder ∧ (moveOn w
    s).mgmt.mcsLow = s.mgmt.mcsLow ∧ (moveOn w s).mgmt.warmPending = s.mgmt.warmPending ∧ (moveOn
    w s).mgmt.response = s.mgmt.response ∧ (moveOn w s).mgmt.mask = s.mgmt.mask ∧ (moveOn w
    s).mgmt.counters = s.mgmt.counters ∧ (moveOn w s).pins = s.pins ∧ (moveOn w s).pending =
    s.pending := by
  unfold moveOn; (repeat' split) <;> simp

@[simp] theorem recordDone_frame (w : Walk) (s : State) :
    (recordDone w s).up = s.up ∧ (recordDone w s).cls = s.cls ∧ (recordDone w s).log.configured =
    s.log.configured ∧ (recordDone w s).log.base = s.log.base ∧ (recordDone w s).log.capacity =
    s.log.capacity ∧ (recordDone w s).log.policy = s.log.policy ∧ (recordDone w s).log.stallLimit
    = s.log.stallLimit ∧ (recordDone w s).log.watermark = s.log.watermark ∧ (recordDone w
    s).log.tail = s.log.tail ∧ (recordDone w s).log.finished = s.log.finished ∧ (recordDone w
    s).ckpt.nextNumber = s.ckpt.nextNumber ∧ (recordDone w s).ckpt.lineFlag = s.ckpt.lineFlag ∧
    (recordDone w s).ckpt.timerFlag = s.ckpt.timerFlag ∧ (recordDone w s).ckpt.cascadeFlag =
    s.ckpt.cascadeFlag ∧ (recordDone w s).ckpt.lineEnable = s.ckpt.lineEnable ∧ (recordDone w
    s).ckpt.autoTake = s.ckpt.autoTake ∧ (recordDone w s).ckpt.rolling = s.ckpt.rolling ∧
    (recordDone w s).ckpt.interval = s.ckpt.interval ∧ (recordDone w s).ckpt.intervalCount =
    s.ckpt.intervalCount ∧ (recordDone w s).ckpt.intervalMicros = s.ckpt.intervalMicros ∧
    (recordDone w s).ckpt.ckptLevel = s.ckpt.ckptLevel ∧ (recordDone w s).restore.unrestored =
    s.restore.unrestored ∧ (recordDone w s).restore.overflow = s.restore.overflow ∧ (recordDone w
    s).down.preserveReady = s.down.preserveReady ∧ (recordDone w s).down.tags = s.down.tags ∧
    (recordDone w s).down.channel = s.down.channel ∧ (recordDone w s).down.turn = s.down.turn ∧
    (recordDone w s).down.used = s.down.used ∧ (recordDone w s).down.limit = s.down.limit ∧
    (recordDone w s).down.wHost = s.down.wHost ∧ (recordDone w s).down.wPreserve =
    s.down.wPreserve ∧ (recordDone w s).down.wRestore = s.down.wRestore ∧ (recordDone w
    s).down.timeout = s.down.timeout ∧ (recordDone w s).casc.role = s.casc.role ∧ (recordDone w
    s).casc.last = s.casc.last ∧ (recordDone w s).casc.agreementLimit = s.casc.agreementLimit ∧
    (recordDone w s).casc.holdLimit = s.casc.holdLimit ∧ (recordDone w s).casc.opId = s.casc.opId
    ∧ (recordDone w s).casc.abandoned = s.casc.abandoned ∧ (recordDone w s).casc.lastRefusal =
    s.casc.lastRefusal ∧ (recordDone w s).casc.badCount = s.casc.badCount ∧ (recordDone w
    s).casc.upList = s.casc.upList ∧ (recordDone w s).casc.downList = s.casc.downList ∧
    (recordDone w s).mgmt.decoder = s.mgmt.decoder ∧ (recordDone w s).mgmt.mcsLow = s.mgmt.mcsLow
    ∧ (recordDone w s).mgmt.warmPending = s.mgmt.warmPending ∧ (recordDone w s).mgmt.response =
    s.mgmt.response ∧ (recordDone w s).mgmt.mask = s.mgmt.mask ∧ (recordDone w s).mgmt.counters =
    s.mgmt.counters ∧ (recordDone w s).pins = s.pins ∧ (recordDone w s).pending = s.pending := by
  unfold recordDone; simp

@[simp] theorem walkHeaderOk_frame (w : Walk) (h : LineData) (s : State) :
    (walkHeaderOk w h s).up = s.up ∧ (walkHeaderOk w h s).cls = s.cls ∧ (walkHeaderOk w h
    s).log.configured = s.log.configured ∧ (walkHeaderOk w h s).log.base = s.log.base ∧
    (walkHeaderOk w h s).log.capacity = s.log.capacity ∧ (walkHeaderOk w h s).log.policy =
    s.log.policy ∧ (walkHeaderOk w h s).log.stallLimit = s.log.stallLimit ∧ (walkHeaderOk w h
    s).log.watermark = s.log.watermark ∧ (walkHeaderOk w h s).log.tail = s.log.tail ∧
    (walkHeaderOk w h s).log.finished = s.log.finished ∧ (walkHeaderOk w h s).ckpt.nextNumber =
    s.ckpt.nextNumber ∧ (walkHeaderOk w h s).ckpt.lineFlag = s.ckpt.lineFlag ∧ (walkHeaderOk w h
    s).ckpt.timerFlag = s.ckpt.timerFlag ∧ (walkHeaderOk w h s).ckpt.cascadeFlag =
    s.ckpt.cascadeFlag ∧ (walkHeaderOk w h s).ckpt.lineEnable = s.ckpt.lineEnable ∧ (walkHeaderOk
    w h s).ckpt.autoTake = s.ckpt.autoTake ∧ (walkHeaderOk w h s).ckpt.rolling = s.ckpt.rolling ∧
    (walkHeaderOk w h s).ckpt.interval = s.ckpt.interval ∧ (walkHeaderOk w h s).ckpt.intervalCount
    = s.ckpt.intervalCount ∧ (walkHeaderOk w h s).ckpt.intervalMicros = s.ckpt.intervalMicros ∧
    (walkHeaderOk w h s).ckpt.ckptLevel = s.ckpt.ckptLevel ∧ (walkHeaderOk w h
    s).down.preserveReady = s.down.preserveReady ∧ (walkHeaderOk w h s).down.tags = s.down.tags ∧
    (walkHeaderOk w h s).down.channel = s.down.channel ∧ (walkHeaderOk w h s).down.turn =
    s.down.turn ∧ (walkHeaderOk w h s).down.used = s.down.used ∧ (walkHeaderOk w h s).down.limit =
    s.down.limit ∧ (walkHeaderOk w h s).down.wHost = s.down.wHost ∧ (walkHeaderOk w h
    s).down.wPreserve = s.down.wPreserve ∧ (walkHeaderOk w h s).down.wRestore = s.down.wRestore ∧
    (walkHeaderOk w h s).down.timeout = s.down.timeout ∧ (walkHeaderOk w h s).casc.role =
    s.casc.role ∧ (walkHeaderOk w h s).casc.last = s.casc.last ∧ (walkHeaderOk w h
    s).casc.agreementLimit = s.casc.agreementLimit ∧ (walkHeaderOk w h s).casc.holdLimit =
    s.casc.holdLimit ∧ (walkHeaderOk w h s).casc.opId = s.casc.opId ∧ (walkHeaderOk w h
    s).casc.abandoned = s.casc.abandoned ∧ (walkHeaderOk w h s).casc.lastRefusal =
    s.casc.lastRefusal ∧ (walkHeaderOk w h s).casc.badCount = s.casc.badCount ∧ (walkHeaderOk w h
    s).casc.upList = s.casc.upList ∧ (walkHeaderOk w h s).casc.downList = s.casc.downList ∧
    (walkHeaderOk w h s).mgmt.decoder = s.mgmt.decoder ∧ (walkHeaderOk w h s).mgmt.mcsLow =
    s.mgmt.mcsLow ∧ (walkHeaderOk w h s).mgmt.warmPending = s.mgmt.warmPending ∧ (walkHeaderOk w h
    s).mgmt.response = s.mgmt.response ∧ (walkHeaderOk w h s).mgmt.mask = s.mgmt.mask ∧
    (walkHeaderOk w h s).mgmt.counters = s.mgmt.counters ∧ (walkHeaderOk w h s).pins = s.pins ∧
    (walkHeaderOk w h s).pending = s.pending := by
  unfold walkHeaderOk; (repeat' split) <;> simp

@[simp] theorem walkDataOk_frame (w : Walk) (d : LineData) (s : State) :
    (walkDataOk w d s).up = s.up ∧ (walkDataOk w d s).cls = s.cls ∧ (walkDataOk w d
    s).log.configured = s.log.configured ∧ (walkDataOk w d s).log.base = s.log.base ∧ (walkDataOk
    w d s).log.capacity = s.log.capacity ∧ (walkDataOk w d s).log.policy = s.log.policy ∧
    (walkDataOk w d s).log.stallLimit = s.log.stallLimit ∧ (walkDataOk w d s).log.watermark =
    s.log.watermark ∧ (walkDataOk w d s).log.tail = s.log.tail ∧ (walkDataOk w d s).log.finished =
    s.log.finished ∧ (walkDataOk w d s).ckpt.nextNumber = s.ckpt.nextNumber ∧ (walkDataOk w d
    s).ckpt.lineFlag = s.ckpt.lineFlag ∧ (walkDataOk w d s).ckpt.timerFlag = s.ckpt.timerFlag ∧
    (walkDataOk w d s).ckpt.cascadeFlag = s.ckpt.cascadeFlag ∧ (walkDataOk w d s).ckpt.lineEnable
    = s.ckpt.lineEnable ∧ (walkDataOk w d s).ckpt.autoTake = s.ckpt.autoTake ∧ (walkDataOk w d
    s).ckpt.rolling = s.ckpt.rolling ∧ (walkDataOk w d s).ckpt.interval = s.ckpt.interval ∧
    (walkDataOk w d s).ckpt.intervalCount = s.ckpt.intervalCount ∧ (walkDataOk w d
    s).ckpt.intervalMicros = s.ckpt.intervalMicros ∧ (walkDataOk w d s).ckpt.ckptLevel =
    s.ckpt.ckptLevel ∧ (walkDataOk w d s).restore.unrestored = s.restore.unrestored ∧ (walkDataOk
    w d s).restore.overflow = s.restore.overflow ∧ (walkDataOk w d s).down.preserveReady =
    s.down.preserveReady ∧ (walkDataOk w d s).down.tags = s.down.tags ∧ (walkDataOk w d
    s).down.channel = s.down.channel ∧ (walkDataOk w d s).down.turn = s.down.turn ∧ (walkDataOk w
    d s).down.used = s.down.used ∧ (walkDataOk w d s).down.limit = s.down.limit ∧ (walkDataOk w d
    s).down.wHost = s.down.wHost ∧ (walkDataOk w d s).down.wPreserve = s.down.wPreserve ∧
    (walkDataOk w d s).down.wRestore = s.down.wRestore ∧ (walkDataOk w d s).down.timeout =
    s.down.timeout ∧ (walkDataOk w d s).casc.role = s.casc.role ∧ (walkDataOk w d s).casc.last =
    s.casc.last ∧ (walkDataOk w d s).casc.agreementLimit = s.casc.agreementLimit ∧ (walkDataOk w d
    s).casc.holdLimit = s.casc.holdLimit ∧ (walkDataOk w d s).casc.opId = s.casc.opId ∧
    (walkDataOk w d s).casc.abandoned = s.casc.abandoned ∧ (walkDataOk w d s).casc.lastRefusal =
    s.casc.lastRefusal ∧ (walkDataOk w d s).casc.badCount = s.casc.badCount ∧ (walkDataOk w d
    s).casc.upList = s.casc.upList ∧ (walkDataOk w d s).casc.downList = s.casc.downList ∧
    (walkDataOk w d s).mgmt.decoder = s.mgmt.decoder ∧ (walkDataOk w d s).mgmt.mcsLow =
    s.mgmt.mcsLow ∧ (walkDataOk w d s).mgmt.warmPending = s.mgmt.warmPending ∧ (walkDataOk w d
    s).mgmt.response = s.mgmt.response ∧ (walkDataOk w d s).mgmt.mask = s.mgmt.mask ∧ (walkDataOk
    w d s).mgmt.counters = s.mgmt.counters ∧ (walkDataOk w d s).pins = s.pins ∧ (walkDataOk w d
    s).pending = s.pending := by
  unfold walkDataOk; (repeat' split) <;> simp

@[simp] theorem failLine_frame (w : Walk) (s : State) :
    (failLine w s).up = s.up ∧ (failLine w s).cls = s.cls ∧ (failLine w s).entries = s.entries ∧
    (failLine w s).filter = s.filter ∧ (failLine w s).log = s.log ∧ (failLine w s).ckpt = s.ckpt ∧
    (failLine w s).restore.walk = s.restore.walk ∧ (failLine w s).down = s.down ∧ (failLine w
    s).casc = s.casc ∧ (failLine w s).mgmt = s.mgmt ∧ (failLine w s).pins = s.pins ∧ (failLine w
    s).pending = s.pending := by
  unfold failLine; (repeat' split) <;> simp

@[simp] theorem drainWalk_frame (w : Walk) (s : State) :
    (drainWalk w s).up = s.up ∧ (drainWalk w s).cls = s.cls ∧ (drainWalk w s).entries = s.entries
    ∧ (drainWalk w s).filter = s.filter ∧ (drainWalk w s).log = s.log ∧ (drainWalk w s).ckpt =
    s.ckpt ∧ (drainWalk w s).restore.unrestored = s.restore.unrestored ∧ (drainWalk w
    s).restore.overflow = s.restore.overflow ∧ (drainWalk w s).down = s.down ∧ (drainWalk w
    s).casc = s.casc ∧ (drainWalk w s).mgmt = s.mgmt ∧ (drainWalk w s).pins = s.pins ∧ (drainWalk
    w s).pending = s.pending := by
  simp [drainWalk]

@[simp] theorem walkFreed_frame (s : State) :
    (walkFreed s).up = s.up ∧ (walkFreed s).cls = s.cls ∧ (walkFreed s).log.configured =
    s.log.configured ∧ (walkFreed s).log.base = s.log.base ∧ (walkFreed s).log.capacity =
    s.log.capacity ∧ (walkFreed s).log.policy = s.log.policy ∧ (walkFreed s).log.stallLimit =
    s.log.stallLimit ∧ (walkFreed s).log.watermark = s.log.watermark ∧ (walkFreed s).log.tail =
    s.log.tail ∧ (walkFreed s).log.finished = s.log.finished ∧ (walkFreed s).ckpt.nextNumber =
    s.ckpt.nextNumber ∧ (walkFreed s).ckpt.lineFlag = s.ckpt.lineFlag ∧ (walkFreed
    s).ckpt.timerFlag = s.ckpt.timerFlag ∧ (walkFreed s).ckpt.cascadeFlag = s.ckpt.cascadeFlag ∧
    (walkFreed s).ckpt.lineEnable = s.ckpt.lineEnable ∧ (walkFreed s).ckpt.autoTake =
    s.ckpt.autoTake ∧ (walkFreed s).ckpt.rolling = s.ckpt.rolling ∧ (walkFreed s).ckpt.interval =
    s.ckpt.interval ∧ (walkFreed s).ckpt.intervalCount = s.ckpt.intervalCount ∧ (walkFreed
    s).ckpt.intervalMicros = s.ckpt.intervalMicros ∧ (walkFreed s).ckpt.ckptLevel =
    s.ckpt.ckptLevel ∧ (walkFreed s).restore.unrestored = s.restore.unrestored ∧ (walkFreed
    s).restore.overflow = s.restore.overflow ∧ (walkFreed s).down.preserveReady =
    s.down.preserveReady ∧ (walkFreed s).down.tags = s.down.tags ∧ (walkFreed s).down.channel =
    s.down.channel ∧ (walkFreed s).down.turn = s.down.turn ∧ (walkFreed s).down.used = s.down.used
    ∧ (walkFreed s).down.limit = s.down.limit ∧ (walkFreed s).down.wHost = s.down.wHost ∧
    (walkFreed s).down.wPreserve = s.down.wPreserve ∧ (walkFreed s).down.wRestore =
    s.down.wRestore ∧ (walkFreed s).down.timeout = s.down.timeout ∧ (walkFreed s).casc.role =
    s.casc.role ∧ (walkFreed s).casc.last = s.casc.last ∧ (walkFreed s).casc.agreementLimit =
    s.casc.agreementLimit ∧ (walkFreed s).casc.holdLimit = s.casc.holdLimit ∧ (walkFreed
    s).casc.opId = s.casc.opId ∧ (walkFreed s).casc.abandoned = s.casc.abandoned ∧ (walkFreed
    s).casc.lastRefusal = s.casc.lastRefusal ∧ (walkFreed s).casc.badCount = s.casc.badCount ∧
    (walkFreed s).casc.upList = s.casc.upList ∧ (walkFreed s).casc.downList = s.casc.downList ∧
    (walkFreed s).mgmt.decoder = s.mgmt.decoder ∧ (walkFreed s).mgmt.mcsLow = s.mgmt.mcsLow ∧
    (walkFreed s).mgmt.warmPending = s.mgmt.warmPending ∧ (walkFreed s).mgmt.response =
    s.mgmt.response ∧ (walkFreed s).mgmt.mask = s.mgmt.mask ∧ (walkFreed s).mgmt.counters =
    s.mgmt.counters ∧ (walkFreed s).pins = s.pins ∧ (walkFreed s).pending = s.pending := by
  unfold walkFreed; dsimp only; (repeat' split) <;> simp

@[simp] theorem soloPush_frame (source : Source) (s : State) :
    (soloPush source s).up = s.up ∧ (soloPush source s).cls = s.cls ∧ (soloPush source s).entries
    = s.entries ∧ (soloPush source s).log = s.log ∧ (soloPush source s).ckpt.lineFlag =
    s.ckpt.lineFlag ∧ (soloPush source s).ckpt.timerFlag = s.ckpt.timerFlag ∧ (soloPush source
    s).ckpt.cascadeFlag = s.ckpt.cascadeFlag ∧ (soloPush source s).ckpt.lineEnable =
    s.ckpt.lineEnable ∧ (soloPush source s).ckpt.autoTake = s.ckpt.autoTake ∧ (soloPush source
    s).ckpt.rolling = s.ckpt.rolling ∧ (soloPush source s).ckpt.interval = s.ckpt.interval ∧
    (soloPush source s).ckpt.intervalCount = s.ckpt.intervalCount ∧ (soloPush source
    s).ckpt.intervalMicros = s.ckpt.intervalMicros ∧ (soloPush source s).ckpt.ckptLevel =
    s.ckpt.ckptLevel ∧ (soloPush source s).restore = s.restore ∧ (soloPush source s).down = s.down
    ∧ (soloPush source s).casc = s.casc ∧ (soloPush source s).mgmt.decoder = s.mgmt.decoder ∧
    (soloPush source s).mgmt.mcsLow = s.mgmt.mcsLow ∧ (soloPush source s).mgmt.warmPending =
    s.mgmt.warmPending ∧ (soloPush source s).mgmt.response = s.mgmt.response ∧ (soloPush source
    s).mgmt.mask = s.mgmt.mask ∧ (soloPush source s).mgmt.counters = s.mgmt.counters ∧ (soloPush
    source s).pins = s.pins ∧ (soloPush source s).pending = s.pending := by
  unfold soloPush; dsimp only; simp

@[simp] theorem enterAgreeing_frame (goal : Goal) (source : Source) (s : State) :
    (enterAgreeing goal source s).up = s.up ∧ (enterAgreeing goal source s).cls = s.cls ∧
    (enterAgreeing goal source s).entries = s.entries ∧ (enterAgreeing goal source s).filter =
    s.filter ∧ (enterAgreeing goal source s).log = s.log ∧ (enterAgreeing goal source
    s).ckpt.stack = s.ckpt.stack ∧ (enterAgreeing goal source s).ckpt.nextNumber =
    s.ckpt.nextNumber ∧ (enterAgreeing goal source s).ckpt.generation = s.ckpt.generation ∧
    (enterAgreeing goal source s).ckpt.fence = s.ckpt.fence ∧ (enterAgreeing goal source
    s).ckpt.lineFlag = s.ckpt.lineFlag ∧ (enterAgreeing goal source s).ckpt.timerFlag =
    s.ckpt.timerFlag ∧ (enterAgreeing goal source s).ckpt.cascadeFlag = s.ckpt.cascadeFlag ∧
    (enterAgreeing goal source s).ckpt.lineEnable = s.ckpt.lineEnable ∧ (enterAgreeing goal source
    s).ckpt.autoTake = s.ckpt.autoTake ∧ (enterAgreeing goal source s).ckpt.rolling =
    s.ckpt.rolling ∧ (enterAgreeing goal source s).ckpt.interval = s.ckpt.interval ∧
    (enterAgreeing goal source s).ckpt.intervalCount = s.ckpt.intervalCount ∧ (enterAgreeing goal
    source s).ckpt.intervalMicros = s.ckpt.intervalMicros ∧ (enterAgreeing goal source
    s).ckpt.ckptLevel = s.ckpt.ckptLevel ∧ (enterAgreeing goal source s).restore = s.restore ∧
    (enterAgreeing goal source s).down = s.down ∧ (enterAgreeing goal source s).casc.role =
    s.casc.role ∧ (enterAgreeing goal source s).casc.last = s.casc.last ∧ (enterAgreeing goal
    source s).casc.agreementLimit = s.casc.agreementLimit ∧ (enterAgreeing goal source
    s).casc.holdLimit = s.casc.holdLimit ∧ (enterAgreeing goal source s).casc.opId = s.casc.opId ∧
    (enterAgreeing goal source s).casc.abandoned = s.casc.abandoned ∧ (enterAgreeing goal source
    s).casc.lastRefusal = s.casc.lastRefusal ∧ (enterAgreeing goal source s).casc.badCount =
    s.casc.badCount ∧ (enterAgreeing goal source s).casc.upList = s.casc.upList ∧ (enterAgreeing
    goal source s).casc.downList = s.casc.downList ∧ (enterAgreeing goal source s).mgmt = s.mgmt ∧
    (enterAgreeing goal source s).pins = s.pins ∧ (enterAgreeing goal source s).pending =
    s.pending := by
  unfold enterAgreeing; simp

@[simp] theorem settleTake_frame (s : State) :
    (settleTake s).up = s.up ∧ (settleTake s).cls = s.cls ∧ (settleTake s).entries = s.entries ∧
    (settleTake s).log = s.log ∧ (settleTake s).ckpt.lineFlag = s.ckpt.lineFlag ∧ (settleTake
    s).ckpt.timerFlag = s.ckpt.timerFlag ∧ (settleTake s).ckpt.cascadeFlag = s.ckpt.cascadeFlag ∧
    (settleTake s).ckpt.lineEnable = s.ckpt.lineEnable ∧ (settleTake s).ckpt.autoTake =
    s.ckpt.autoTake ∧ (settleTake s).ckpt.rolling = s.ckpt.rolling ∧ (settleTake s).ckpt.interval
    = s.ckpt.interval ∧ (settleTake s).ckpt.intervalCount = s.ckpt.intervalCount ∧ (settleTake
    s).ckpt.intervalMicros = s.ckpt.intervalMicros ∧ (settleTake s).ckpt.ckptLevel =
    s.ckpt.ckptLevel ∧ (settleTake s).restore = s.restore ∧ (settleTake s).down = s.down ∧
    (settleTake s).casc.role = s.casc.role ∧ (settleTake s).casc.last = s.casc.last ∧ (settleTake
    s).casc.agreementLimit = s.casc.agreementLimit ∧ (settleTake s).casc.holdLimit =
    s.casc.holdLimit ∧ (settleTake s).casc.opId = s.casc.opId ∧ (settleTake s).casc.abandoned =
    s.casc.abandoned ∧ (settleTake s).casc.lastRefusal = s.casc.lastRefusal ∧ (settleTake
    s).casc.badCount = s.casc.badCount ∧ (settleTake s).casc.upList = s.casc.upList ∧ (settleTake
    s).casc.downList = s.casc.downList ∧ (settleTake s).mgmt.decoder = s.mgmt.decoder ∧
    (settleTake s).mgmt.mcsLow = s.mgmt.mcsLow ∧ (settleTake s).mgmt.warmPending =
    s.mgmt.warmPending ∧ (settleTake s).mgmt.response = s.mgmt.response ∧ (settleTake s).mgmt.mask
    = s.mgmt.mask ∧ (settleTake s).mgmt.counters = s.mgmt.counters ∧ (settleTake s).pins = s.pins
    ∧ (settleTake s).pending = s.pending := by
  unfold settleTake; (repeat' split) <;> simp

@[simp] theorem refuseBroken_frame (k : CkptNumber) (source : Source) (s : State) :
    (refuseBroken k source s).up = s.up ∧ (refuseBroken k source s).cls = s.cls ∧ (refuseBroken k
    source s).entries = s.entries ∧ (refuseBroken k source s).filter = s.filter ∧ (refuseBroken k
    source s).log = s.log ∧ (refuseBroken k source s).ckpt.stack = s.ckpt.stack ∧ (refuseBroken k
    source s).ckpt.nextNumber = s.ckpt.nextNumber ∧ (refuseBroken k source s).ckpt.generation =
    s.ckpt.generation ∧ (refuseBroken k source s).ckpt.lineFlag = s.ckpt.lineFlag ∧ (refuseBroken
    k source s).ckpt.timerFlag = s.ckpt.timerFlag ∧ (refuseBroken k source s).ckpt.cascadeFlag =
    s.ckpt.cascadeFlag ∧ (refuseBroken k source s).ckpt.lineEnable = s.ckpt.lineEnable ∧
    (refuseBroken k source s).ckpt.autoTake = s.ckpt.autoTake ∧ (refuseBroken k source
    s).ckpt.rolling = s.ckpt.rolling ∧ (refuseBroken k source s).ckpt.interval = s.ckpt.interval ∧
    (refuseBroken k source s).ckpt.intervalCount = s.ckpt.intervalCount ∧ (refuseBroken k source
    s).ckpt.intervalMicros = s.ckpt.intervalMicros ∧ (refuseBroken k source s).ckpt.ckptLevel =
    s.ckpt.ckptLevel ∧ (refuseBroken k source s).restore = s.restore ∧ (refuseBroken k source
    s).down = s.down ∧ (refuseBroken k source s).casc.role = s.casc.role ∧ (refuseBroken k source
    s).casc.last = s.casc.last ∧ (refuseBroken k source s).casc.agreementLimit =
    s.casc.agreementLimit ∧ (refuseBroken k source s).casc.holdLimit = s.casc.holdLimit ∧
    (refuseBroken k source s).casc.opId = s.casc.opId ∧ (refuseBroken k source s).casc.lastRefusal
    = s.casc.lastRefusal ∧ (refuseBroken k source s).casc.badCount = s.casc.badCount ∧
    (refuseBroken k source s).mgmt.decoder = s.mgmt.decoder ∧ (refuseBroken k source
    s).mgmt.mcsLow = s.mgmt.mcsLow ∧ (refuseBroken k source s).mgmt.warmPending =
    s.mgmt.warmPending ∧ (refuseBroken k source s).mgmt.response = s.mgmt.response ∧ (refuseBroken
    k source s).mgmt.mask = s.mgmt.mask ∧ (refuseBroken k source s).mgmt.counters =
    s.mgmt.counters ∧ (refuseBroken k source s).pins = s.pins ∧ (refuseBroken k source s).pending
    = s.pending := by
  unfold refuseBroken; dsimp only; (repeat' split) <;> simp

@[simp] theorem settleRollback_frame (s : State) :
    (settleRollback s).up = s.up ∧ (settleRollback s).cls = s.cls ∧ (settleRollback
    s).log.configured = s.log.configured ∧ (settleRollback s).log.base = s.log.base ∧
    (settleRollback s).log.capacity = s.log.capacity ∧ (settleRollback s).log.policy =
    s.log.policy ∧ (settleRollback s).log.stallLimit = s.log.stallLimit ∧ (settleRollback
    s).log.watermark = s.log.watermark ∧ (settleRollback s).log.tail = s.log.tail ∧
    (settleRollback s).log.finished = s.log.finished ∧ (settleRollback s).ckpt.nextNumber =
    s.ckpt.nextNumber ∧ (settleRollback s).ckpt.lineFlag = s.ckpt.lineFlag ∧ (settleRollback
    s).ckpt.timerFlag = s.ckpt.timerFlag ∧ (settleRollback s).ckpt.cascadeFlag =
    s.ckpt.cascadeFlag ∧ (settleRollback s).ckpt.lineEnable = s.ckpt.lineEnable ∧ (settleRollback
    s).ckpt.autoTake = s.ckpt.autoTake ∧ (settleRollback s).ckpt.rolling = s.ckpt.rolling ∧
    (settleRollback s).ckpt.interval = s.ckpt.interval ∧ (settleRollback s).ckpt.intervalCount =
    s.ckpt.intervalCount ∧ (settleRollback s).ckpt.intervalMicros = s.ckpt.intervalMicros ∧
    (settleRollback s).ckpt.ckptLevel = s.ckpt.ckptLevel ∧ (settleRollback s).restore.unrestored =
    s.restore.unrestored ∧ (settleRollback s).restore.overflow = s.restore.overflow ∧
    (settleRollback s).down.preserveReady = s.down.preserveReady ∧ (settleRollback s).down.tags =
    s.down.tags ∧ (settleRollback s).down.channel = s.down.channel ∧ (settleRollback s).down.turn
    = s.down.turn ∧ (settleRollback s).down.used = s.down.used ∧ (settleRollback s).down.limit =
    s.down.limit ∧ (settleRollback s).down.wHost = s.down.wHost ∧ (settleRollback
    s).down.wPreserve = s.down.wPreserve ∧ (settleRollback s).down.wRestore = s.down.wRestore ∧
    (settleRollback s).down.timeout = s.down.timeout ∧ (settleRollback s).casc.role = s.casc.role
    ∧ (settleRollback s).casc.last = s.casc.last ∧ (settleRollback s).casc.agreementLimit =
    s.casc.agreementLimit ∧ (settleRollback s).casc.holdLimit = s.casc.holdLimit ∧ (settleRollback
    s).casc.opId = s.casc.opId ∧ (settleRollback s).casc.lastRefusal = s.casc.lastRefusal ∧
    (settleRollback s).casc.badCount = s.casc.badCount ∧ (settleRollback s).mgmt.decoder =
    s.mgmt.decoder ∧ (settleRollback s).mgmt.mcsLow = s.mgmt.mcsLow ∧ (settleRollback
    s).mgmt.warmPending = s.mgmt.warmPending ∧ (settleRollback s).mgmt.response = s.mgmt.response
    ∧ (settleRollback s).mgmt.mask = s.mgmt.mask ∧ (settleRollback s).mgmt.counters =
    s.mgmt.counters ∧ (settleRollback s).pins = s.pins ∧ (settleRollback s).pending = s.pending := by
  unfold settleRollback; (repeat' split) <;> simp

@[simp] theorem settle_frame (s : State) :
    (settle s).up = s.up ∧ (settle s).cls = s.cls ∧ (settle s).log.configured = s.log.configured ∧
    (settle s).log.base = s.log.base ∧ (settle s).log.capacity = s.log.capacity ∧ (settle
    s).log.policy = s.log.policy ∧ (settle s).log.stallLimit = s.log.stallLimit ∧ (settle
    s).log.watermark = s.log.watermark ∧ (settle s).log.tail = s.log.tail ∧ (settle
    s).log.finished = s.log.finished ∧ (settle s).ckpt.lineFlag = s.ckpt.lineFlag ∧ (settle
    s).ckpt.timerFlag = s.ckpt.timerFlag ∧ (settle s).ckpt.cascadeFlag = s.ckpt.cascadeFlag ∧
    (settle s).ckpt.lineEnable = s.ckpt.lineEnable ∧ (settle s).ckpt.autoTake = s.ckpt.autoTake ∧
    (settle s).ckpt.rolling = s.ckpt.rolling ∧ (settle s).ckpt.interval = s.ckpt.interval ∧
    (settle s).ckpt.intervalCount = s.ckpt.intervalCount ∧ (settle s).ckpt.intervalMicros =
    s.ckpt.intervalMicros ∧ (settle s).ckpt.ckptLevel = s.ckpt.ckptLevel ∧ (settle
    s).restore.unrestored = s.restore.unrestored ∧ (settle s).restore.overflow =
    s.restore.overflow ∧ (settle s).down.preserveReady = s.down.preserveReady ∧ (settle
    s).down.tags = s.down.tags ∧ (settle s).down.channel = s.down.channel ∧ (settle s).down.turn =
    s.down.turn ∧ (settle s).down.used = s.down.used ∧ (settle s).down.limit = s.down.limit ∧
    (settle s).down.wHost = s.down.wHost ∧ (settle s).down.wPreserve = s.down.wPreserve ∧ (settle
    s).down.wRestore = s.down.wRestore ∧ (settle s).down.timeout = s.down.timeout ∧ (settle
    s).casc.role = s.casc.role ∧ (settle s).casc.last = s.casc.last ∧ (settle
    s).casc.agreementLimit = s.casc.agreementLimit ∧ (settle s).casc.holdLimit = s.casc.holdLimit
    ∧ (settle s).casc.opId = s.casc.opId ∧ (settle s).casc.lastRefusal = s.casc.lastRefusal ∧
    (settle s).casc.badCount = s.casc.badCount ∧ (settle s).mgmt.decoder = s.mgmt.decoder ∧
    (settle s).mgmt.mcsLow = s.mgmt.mcsLow ∧ (settle s).mgmt.warmPending = s.mgmt.warmPending ∧
    (settle s).mgmt.response = s.mgmt.response ∧ (settle s).mgmt.mask = s.mgmt.mask ∧ (settle
    s).mgmt.counters = s.mgmt.counters ∧ (settle s).pins = s.pins ∧ (settle s).pending = s.pending := by
  unfold settle; simp

@[simp] theorem goTake_frame (a : Agreement) (s : State) :
    (goTake a s).up = s.up ∧ (goTake a s).cls = s.cls ∧ (goTake a s).entries = s.entries ∧ (goTake
    a s).log = s.log ∧ (goTake a s).ckpt.lineFlag = s.ckpt.lineFlag ∧ (goTake a s).ckpt.timerFlag
    = s.ckpt.timerFlag ∧ (goTake a s).ckpt.cascadeFlag = s.ckpt.cascadeFlag ∧ (goTake a
    s).ckpt.lineEnable = s.ckpt.lineEnable ∧ (goTake a s).ckpt.autoTake = s.ckpt.autoTake ∧
    (goTake a s).ckpt.rolling = s.ckpt.rolling ∧ (goTake a s).ckpt.interval = s.ckpt.interval ∧
    (goTake a s).ckpt.intervalCount = s.ckpt.intervalCount ∧ (goTake a s).ckpt.intervalMicros =
    s.ckpt.intervalMicros ∧ (goTake a s).ckpt.ckptLevel = s.ckpt.ckptLevel ∧ (goTake a s).restore
    = s.restore ∧ (goTake a s).down = s.down ∧ (goTake a s).casc.role = s.casc.role ∧ (goTake a
    s).casc.last = s.casc.last ∧ (goTake a s).casc.agreementLimit = s.casc.agreementLimit ∧
    (goTake a s).casc.holdLimit = s.casc.holdLimit ∧ (goTake a s).casc.opId = s.casc.opId ∧
    (goTake a s).casc.abandoned = s.casc.abandoned ∧ (goTake a s).casc.lastRefusal =
    s.casc.lastRefusal ∧ (goTake a s).casc.badCount = s.casc.badCount ∧ (goTake a s).mgmt.decoder
    = s.mgmt.decoder ∧ (goTake a s).mgmt.mcsLow = s.mgmt.mcsLow ∧ (goTake a s).mgmt.warmPending =
    s.mgmt.warmPending ∧ (goTake a s).mgmt.response = s.mgmt.response ∧ (goTake a s).mgmt.mask =
    s.mgmt.mask ∧ (goTake a s).mgmt.counters = s.mgmt.counters ∧ (goTake a s).mgmt.result =
    s.mgmt.result ∧ (goTake a s).pins = s.pins ∧ (goTake a s).pending = s.pending := by
  unfold goTake; dsimp only; simp

@[simp] theorem goRollback_frame (a : Agreement) (k : CkptNumber) (s : State) :
    (goRollback a k s).up = s.up ∧ (goRollback a k s).cls = s.cls ∧ (goRollback a k
    s).log.configured = s.log.configured ∧ (goRollback a k s).log.base = s.log.base ∧ (goRollback
    a k s).log.capacity = s.log.capacity ∧ (goRollback a k s).log.policy = s.log.policy ∧
    (goRollback a k s).log.stallLimit = s.log.stallLimit ∧ (goRollback a k s).log.watermark =
    s.log.watermark ∧ (goRollback a k s).log.tail = s.log.tail ∧ (goRollback a k s).log.finished =
    s.log.finished ∧ (goRollback a k s).ckpt.nextNumber = s.ckpt.nextNumber ∧ (goRollback a k
    s).ckpt.lineFlag = s.ckpt.lineFlag ∧ (goRollback a k s).ckpt.timerFlag = s.ckpt.timerFlag ∧
    (goRollback a k s).ckpt.cascadeFlag = s.ckpt.cascadeFlag ∧ (goRollback a k s).ckpt.lineEnable
    = s.ckpt.lineEnable ∧ (goRollback a k s).ckpt.autoTake = s.ckpt.autoTake ∧ (goRollback a k
    s).ckpt.rolling = s.ckpt.rolling ∧ (goRollback a k s).ckpt.interval = s.ckpt.interval ∧
    (goRollback a k s).ckpt.intervalCount = s.ckpt.intervalCount ∧ (goRollback a k
    s).ckpt.intervalMicros = s.ckpt.intervalMicros ∧ (goRollback a k s).ckpt.ckptLevel =
    s.ckpt.ckptLevel ∧ (goRollback a k s).restore.unrestored = s.restore.unrestored ∧ (goRollback
    a k s).restore.overflow = s.restore.overflow ∧ (goRollback a k s).down.preserveReady =
    s.down.preserveReady ∧ (goRollback a k s).down.tags = s.down.tags ∧ (goRollback a k
    s).down.channel = s.down.channel ∧ (goRollback a k s).down.turn = s.down.turn ∧ (goRollback a
    k s).down.used = s.down.used ∧ (goRollback a k s).down.limit = s.down.limit ∧ (goRollback a k
    s).down.wHost = s.down.wHost ∧ (goRollback a k s).down.wPreserve = s.down.wPreserve ∧
    (goRollback a k s).down.wRestore = s.down.wRestore ∧ (goRollback a k s).down.timeout =
    s.down.timeout ∧ (goRollback a k s).casc.role = s.casc.role ∧ (goRollback a k s).casc.last =
    s.casc.last ∧ (goRollback a k s).casc.agreementLimit = s.casc.agreementLimit ∧ (goRollback a k
    s).casc.holdLimit = s.casc.holdLimit ∧ (goRollback a k s).casc.opId = s.casc.opId ∧
    (goRollback a k s).casc.abandoned = s.casc.abandoned ∧ (goRollback a k s).casc.lastRefusal =
    s.casc.lastRefusal ∧ (goRollback a k s).casc.badCount = s.casc.badCount ∧ (goRollback a k
    s).mgmt.decoder = s.mgmt.decoder ∧ (goRollback a k s).mgmt.mcsLow = s.mgmt.mcsLow ∧
    (goRollback a k s).mgmt.warmPending = s.mgmt.warmPending ∧ (goRollback a k s).mgmt.response =
    s.mgmt.response ∧ (goRollback a k s).mgmt.mask = s.mgmt.mask ∧ (goRollback a k
    s).mgmt.counters = s.mgmt.counters ∧ (goRollback a k s).pins = s.pins ∧ (goRollback a k
    s).pending = s.pending := by
  unfold goRollback; dsimp only; simp

@[simp] theorem leaderGo_frame (s : State) :
    (leaderGo s).up = s.up ∧ (leaderGo s).cls = s.cls ∧ (leaderGo s).log.configured =
    s.log.configured ∧ (leaderGo s).log.base = s.log.base ∧ (leaderGo s).log.capacity =
    s.log.capacity ∧ (leaderGo s).log.policy = s.log.policy ∧ (leaderGo s).log.stallLimit =
    s.log.stallLimit ∧ (leaderGo s).log.watermark = s.log.watermark ∧ (leaderGo s).log.tail =
    s.log.tail ∧ (leaderGo s).log.finished = s.log.finished ∧ (leaderGo s).ckpt.lineFlag =
    s.ckpt.lineFlag ∧ (leaderGo s).ckpt.timerFlag = s.ckpt.timerFlag ∧ (leaderGo
    s).ckpt.cascadeFlag = s.ckpt.cascadeFlag ∧ (leaderGo s).ckpt.lineEnable = s.ckpt.lineEnable ∧
    (leaderGo s).ckpt.autoTake = s.ckpt.autoTake ∧ (leaderGo s).ckpt.rolling = s.ckpt.rolling ∧
    (leaderGo s).ckpt.interval = s.ckpt.interval ∧ (leaderGo s).ckpt.intervalCount =
    s.ckpt.intervalCount ∧ (leaderGo s).ckpt.intervalMicros = s.ckpt.intervalMicros ∧ (leaderGo
    s).ckpt.ckptLevel = s.ckpt.ckptLevel ∧ (leaderGo s).restore.unrestored = s.restore.unrestored
    ∧ (leaderGo s).restore.overflow = s.restore.overflow ∧ (leaderGo s).down.preserveReady =
    s.down.preserveReady ∧ (leaderGo s).down.tags = s.down.tags ∧ (leaderGo s).down.channel =
    s.down.channel ∧ (leaderGo s).down.turn = s.down.turn ∧ (leaderGo s).down.used = s.down.used ∧
    (leaderGo s).down.limit = s.down.limit ∧ (leaderGo s).down.wHost = s.down.wHost ∧ (leaderGo
    s).down.wPreserve = s.down.wPreserve ∧ (leaderGo s).down.wRestore = s.down.wRestore ∧
    (leaderGo s).down.timeout = s.down.timeout ∧ (leaderGo s).casc.role = s.casc.role ∧ (leaderGo
    s).casc.last = s.casc.last ∧ (leaderGo s).casc.agreementLimit = s.casc.agreementLimit ∧
    (leaderGo s).casc.holdLimit = s.casc.holdLimit ∧ (leaderGo s).casc.opId = s.casc.opId ∧
    (leaderGo s).casc.abandoned = s.casc.abandoned ∧ (leaderGo s).casc.lastRefusal =
    s.casc.lastRefusal ∧ (leaderGo s).casc.badCount = s.casc.badCount ∧ (leaderGo s).mgmt.decoder
    = s.mgmt.decoder ∧ (leaderGo s).mgmt.mcsLow = s.mgmt.mcsLow ∧ (leaderGo s).mgmt.warmPending =
    s.mgmt.warmPending ∧ (leaderGo s).mgmt.response = s.mgmt.response ∧ (leaderGo s).mgmt.mask =
    s.mgmt.mask ∧ (leaderGo s).mgmt.counters = s.mgmt.counters ∧ (leaderGo s).pins = s.pins ∧
    (leaderGo s).pending = s.pending := by
  unfold leaderGo; (repeat' split) <;> simp

@[simp] theorem readyOk_frame (s : State) :
    (readyOk s).up = s.up ∧ (readyOk s).cls = s.cls ∧ (readyOk s).entries = s.entries ∧ (readyOk
    s).filter = s.filter ∧ (readyOk s).log = s.log ∧ (readyOk s).ckpt = s.ckpt ∧ (readyOk
    s).restore = s.restore ∧ (readyOk s).down = s.down ∧ (readyOk s).casc.role = s.casc.role ∧
    (readyOk s).casc.last = s.casc.last ∧ (readyOk s).casc.agreementLimit = s.casc.agreementLimit
    ∧ (readyOk s).casc.holdLimit = s.casc.holdLimit ∧ (readyOk s).casc.opId = s.casc.opId ∧
    (readyOk s).casc.abandoned = s.casc.abandoned ∧ (readyOk s).casc.lastRefusal =
    s.casc.lastRefusal ∧ (readyOk s).casc.badCount = s.casc.badCount ∧ (readyOk s).mgmt.decoder =
    s.mgmt.decoder ∧ (readyOk s).mgmt.mcsLow = s.mgmt.mcsLow ∧ (readyOk s).mgmt.warmPending =
    s.mgmt.warmPending ∧ (readyOk s).mgmt.response = s.mgmt.response ∧ (readyOk s).mgmt.mask =
    s.mgmt.mask ∧ (readyOk s).mgmt.counters = s.mgmt.counters ∧ (readyOk s).mgmt.result =
    s.mgmt.result ∧ (readyOk s).pins = s.pins ∧ (readyOk s).pending = s.pending := by
  unfold readyOk; (repeat' split) <;> simp

@[simp] theorem agreementEnd_frame (s : State) :
    (agreementEnd s).up = s.up ∧ (agreementEnd s).cls = s.cls ∧ (agreementEnd s).entries =
    s.entries ∧ (agreementEnd s).filter = s.filter ∧ (agreementEnd s).log = s.log ∧ (agreementEnd
    s).ckpt = s.ckpt ∧ (agreementEnd s).restore = s.restore ∧ (agreementEnd s).down = s.down ∧
    (agreementEnd s).casc.role = s.casc.role ∧ (agreementEnd s).casc.last = s.casc.last ∧
    (agreementEnd s).casc.agreementLimit = s.casc.agreementLimit ∧ (agreementEnd s).casc.holdLimit
    = s.casc.holdLimit ∧ (agreementEnd s).casc.opId = s.casc.opId ∧ (agreementEnd
    s).casc.abandoned = s.casc.abandoned ∧ (agreementEnd s).casc.lastRefusal = s.casc.lastRefusal
    ∧ (agreementEnd s).casc.badCount = s.casc.badCount ∧ (agreementEnd s).casc.upList =
    s.casc.upList ∧ (agreementEnd s).casc.downList = s.casc.downList ∧ (agreementEnd
    s).mgmt.decoder = s.mgmt.decoder ∧ (agreementEnd s).mgmt.mcsLow = s.mgmt.mcsLow ∧
    (agreementEnd s).mgmt.warmPending = s.mgmt.warmPending ∧ (agreementEnd s).mgmt.response =
    s.mgmt.response ∧ (agreementEnd s).mgmt.mask = s.mgmt.mask ∧ (agreementEnd s).mgmt.counters =
    s.mgmt.counters ∧ (agreementEnd s).pins = s.pins ∧ (agreementEnd s).pending = s.pending := by
  unfold agreementEnd; (repeat' split) <;> simp

@[simp] theorem doneSend_frame (s : State) :
    (doneSend s).up = s.up ∧ (doneSend s).cls = s.cls ∧ (doneSend s).entries = s.entries ∧
    (doneSend s).filter = s.filter ∧ (doneSend s).log = s.log ∧ (doneSend s).ckpt = s.ckpt ∧
    (doneSend s).restore = s.restore ∧ (doneSend s).down = s.down ∧ (doneSend s).casc.role =
    s.casc.role ∧ (doneSend s).casc.last = s.casc.last ∧ (doneSend s).casc.agreementLimit =
    s.casc.agreementLimit ∧ (doneSend s).casc.holdLimit = s.casc.holdLimit ∧ (doneSend
    s).casc.opId = s.casc.opId ∧ (doneSend s).casc.abandoned = s.casc.abandoned ∧ (doneSend
    s).casc.lastRefusal = s.casc.lastRefusal ∧ (doneSend s).casc.badCount = s.casc.badCount ∧
    (doneSend s).mgmt.decoder = s.mgmt.decoder ∧ (doneSend s).mgmt.mcsLow = s.mgmt.mcsLow ∧
    (doneSend s).mgmt.warmPending = s.mgmt.warmPending ∧ (doneSend s).mgmt.response =
    s.mgmt.response ∧ (doneSend s).mgmt.mask = s.mgmt.mask ∧ (doneSend s).mgmt.counters =
    s.mgmt.counters ∧ (doneSend s).mgmt.result = s.mgmt.result ∧ (doneSend s).pins = s.pins ∧
    (doneSend s).pending = s.pending := by
  unfold doneSend; (repeat' split) <;> simp

@[simp] theorem cascadeFollow_frame (s : State) :
    (cascadeFollow s).up = s.up ∧ (cascadeFollow s).cls = s.cls ∧ (cascadeFollow s).log.configured
    = s.log.configured ∧ (cascadeFollow s).log.base = s.log.base ∧ (cascadeFollow s).log.capacity
    = s.log.capacity ∧ (cascadeFollow s).log.policy = s.log.policy ∧ (cascadeFollow
    s).log.stallLimit = s.log.stallLimit ∧ (cascadeFollow s).log.watermark = s.log.watermark ∧
    (cascadeFollow s).log.tail = s.log.tail ∧ (cascadeFollow s).log.finished = s.log.finished ∧
    (cascadeFollow s).ckpt.lineFlag = s.ckpt.lineFlag ∧ (cascadeFollow s).ckpt.timerFlag =
    s.ckpt.timerFlag ∧ (cascadeFollow s).ckpt.cascadeFlag = s.ckpt.cascadeFlag ∧ (cascadeFollow
    s).ckpt.lineEnable = s.ckpt.lineEnable ∧ (cascadeFollow s).ckpt.autoTake = s.ckpt.autoTake ∧
    (cascadeFollow s).ckpt.rolling = s.ckpt.rolling ∧ (cascadeFollow s).ckpt.interval =
    s.ckpt.interval ∧ (cascadeFollow s).ckpt.intervalCount = s.ckpt.intervalCount ∧ (cascadeFollow
    s).ckpt.intervalMicros = s.ckpt.intervalMicros ∧ (cascadeFollow s).ckpt.ckptLevel =
    s.ckpt.ckptLevel ∧ (cascadeFollow s).restore.unrestored = s.restore.unrestored ∧
    (cascadeFollow s).restore.overflow = s.restore.overflow ∧ (cascadeFollow s).down.preserveReady
    = s.down.preserveReady ∧ (cascadeFollow s).down.tags = s.down.tags ∧ (cascadeFollow
    s).down.channel = s.down.channel ∧ (cascadeFollow s).down.turn = s.down.turn ∧ (cascadeFollow
    s).down.used = s.down.used ∧ (cascadeFollow s).down.limit = s.down.limit ∧ (cascadeFollow
    s).down.wHost = s.down.wHost ∧ (cascadeFollow s).down.wPreserve = s.down.wPreserve ∧
    (cascadeFollow s).down.wRestore = s.down.wRestore ∧ (cascadeFollow s).down.timeout =
    s.down.timeout ∧ (cascadeFollow s).casc.role = s.casc.role ∧ (cascadeFollow s).casc.last =
    s.casc.last ∧ (cascadeFollow s).casc.agreementLimit = s.casc.agreementLimit ∧ (cascadeFollow
    s).casc.holdLimit = s.casc.holdLimit ∧ (cascadeFollow s).casc.opId = s.casc.opId ∧
    (cascadeFollow s).casc.abandoned = s.casc.abandoned ∧ (cascadeFollow s).casc.lastRefusal =
    s.casc.lastRefusal ∧ (cascadeFollow s).casc.badCount = s.casc.badCount ∧ (cascadeFollow
    s).mgmt.decoder = s.mgmt.decoder ∧ (cascadeFollow s).mgmt.mcsLow = s.mgmt.mcsLow ∧
    (cascadeFollow s).mgmt.warmPending = s.mgmt.warmPending ∧ (cascadeFollow s).mgmt.response =
    s.mgmt.response ∧ (cascadeFollow s).mgmt.mask = s.mgmt.mask ∧ (cascadeFollow s).mgmt.counters
    = s.mgmt.counters ∧ (cascadeFollow s).pins = s.pins ∧ (cascadeFollow s).pending = s.pending := by
  unfold cascadeFollow; simp

@[simp] theorem clearFlags_frame (s : State) :
    (clearFlags s).up = s.up ∧ (clearFlags s).cls = s.cls ∧ (clearFlags s).entries = s.entries ∧
    (clearFlags s).filter = s.filter ∧ (clearFlags s).log = s.log ∧ (clearFlags s).ckpt.stack =
    s.ckpt.stack ∧ (clearFlags s).ckpt.nextNumber = s.ckpt.nextNumber ∧ (clearFlags
    s).ckpt.generation = s.ckpt.generation ∧ (clearFlags s).ckpt.fence = s.ckpt.fence ∧
    (clearFlags s).ckpt.ctrl = s.ckpt.ctrl ∧ (clearFlags s).ckpt.lineEnable = s.ckpt.lineEnable ∧
    (clearFlags s).ckpt.autoTake = s.ckpt.autoTake ∧ (clearFlags s).ckpt.rolling = s.ckpt.rolling
    ∧ (clearFlags s).ckpt.interval = s.ckpt.interval ∧ (clearFlags s).ckpt.intervalCount =
    s.ckpt.intervalCount ∧ (clearFlags s).ckpt.intervalMicros = s.ckpt.intervalMicros ∧
    (clearFlags s).ckpt.ckptLevel = s.ckpt.ckptLevel ∧ (clearFlags s).restore = s.restore ∧
    (clearFlags s).down = s.down ∧ (clearFlags s).casc = s.casc ∧ (clearFlags s).mgmt = s.mgmt ∧
    (clearFlags s).pins = s.pins ∧ (clearFlags s).pending = s.pending := by
  simp [clearFlags]

@[simp] theorem startTake_frame (source : Source) (s : State) :
    (startTake source s).up = s.up ∧ (startTake source s).cls = s.cls ∧ (startTake source
    s).entries = s.entries ∧ (startTake source s).filter = s.filter ∧ (startTake source s).log =
    s.log ∧ (startTake source s).ckpt.stack = s.ckpt.stack ∧ (startTake source s).ckpt.nextNumber
    = s.ckpt.nextNumber ∧ (startTake source s).ckpt.generation = s.ckpt.generation ∧ (startTake
    source s).ckpt.lineEnable = s.ckpt.lineEnable ∧ (startTake source s).ckpt.autoTake =
    s.ckpt.autoTake ∧ (startTake source s).ckpt.rolling = s.ckpt.rolling ∧ (startTake source
    s).ckpt.interval = s.ckpt.interval ∧ (startTake source s).ckpt.intervalCount =
    s.ckpt.intervalCount ∧ (startTake source s).ckpt.intervalMicros = s.ckpt.intervalMicros ∧
    (startTake source s).ckpt.ckptLevel = s.ckpt.ckptLevel ∧ (startTake source s).restore =
    s.restore ∧ (startTake source s).down = s.down ∧ (startTake source s).casc.role = s.casc.role
    ∧ (startTake source s).casc.last = s.casc.last ∧ (startTake source s).casc.agreementLimit =
    s.casc.agreementLimit ∧ (startTake source s).casc.holdLimit = s.casc.holdLimit ∧ (startTake
    source s).casc.abandoned = s.casc.abandoned ∧ (startTake source s).casc.lastRefusal =
    s.casc.lastRefusal ∧ (startTake source s).casc.badCount = s.casc.badCount ∧ (startTake source
    s).mgmt.decoder = s.mgmt.decoder ∧ (startTake source s).mgmt.mcsLow = s.mgmt.mcsLow ∧
    (startTake source s).mgmt.warmPending = s.mgmt.warmPending ∧ (startTake source
    s).mgmt.response = s.mgmt.response ∧ (startTake source s).mgmt.mask = s.mgmt.mask ∧ (startTake
    source s).mgmt.result = s.mgmt.result ∧ (startTake source s).pins = s.pins ∧ (startTake source
    s).pending = s.pending := by
  unfold startTake; dsimp only; (repeat' split) <;> simp

@[simp] theorem missTrigger_frame (source : Source) (s : State) :
    (missTrigger source s).up = s.up ∧ (missTrigger source s).cls = s.cls ∧ (missTrigger source
    s).entries = s.entries ∧ (missTrigger source s).filter = s.filter ∧ (missTrigger source s).log
    = s.log ∧ (missTrigger source s).ckpt.stack = s.ckpt.stack ∧ (missTrigger source
    s).ckpt.nextNumber = s.ckpt.nextNumber ∧ (missTrigger source s).ckpt.generation =
    s.ckpt.generation ∧ (missTrigger source s).ckpt.fence = s.ckpt.fence ∧ (missTrigger source
    s).ckpt.ctrl = s.ckpt.ctrl ∧ (missTrigger source s).ckpt.lineEnable = s.ckpt.lineEnable ∧
    (missTrigger source s).ckpt.autoTake = s.ckpt.autoTake ∧ (missTrigger source s).ckpt.rolling =
    s.ckpt.rolling ∧ (missTrigger source s).ckpt.interval = s.ckpt.interval ∧ (missTrigger source
    s).ckpt.intervalCount = s.ckpt.intervalCount ∧ (missTrigger source s).ckpt.intervalMicros =
    s.ckpt.intervalMicros ∧ (missTrigger source s).ckpt.ckptLevel = s.ckpt.ckptLevel ∧
    (missTrigger source s).restore = s.restore ∧ (missTrigger source s).down = s.down ∧
    (missTrigger source s).casc = s.casc ∧ (missTrigger source s).mgmt.decoder = s.mgmt.decoder ∧
    (missTrigger source s).mgmt.mcsLow = s.mgmt.mcsLow ∧ (missTrigger source s).mgmt.warmPending =
    s.mgmt.warmPending ∧ (missTrigger source s).mgmt.response = s.mgmt.response ∧ (missTrigger
    source s).mgmt.mask = s.mgmt.mask ∧ (missTrigger source s).mgmt.counters = s.mgmt.counters ∧
    (missTrigger source s).pins = s.pins ∧ (missTrigger source s).pending = s.pending := by
  unfold missTrigger; simp

@[simp] theorem triggerCheck_frame (s : State) :
    (triggerCheck s).up = s.up ∧ (triggerCheck s).cls = s.cls ∧ (triggerCheck s).log.configured =
    s.log.configured ∧ (triggerCheck s).log.base = s.log.base ∧ (triggerCheck s).log.capacity =
    s.log.capacity ∧ (triggerCheck s).log.policy = s.log.policy ∧ (triggerCheck s).log.stallLimit
    = s.log.stallLimit ∧ (triggerCheck s).log.watermark = s.log.watermark ∧ (triggerCheck
    s).log.finished = s.log.finished ∧ (triggerCheck s).ckpt.lineEnable = s.ckpt.lineEnable ∧
    (triggerCheck s).ckpt.autoTake = s.ckpt.autoTake ∧ (triggerCheck s).ckpt.rolling =
    s.ckpt.rolling ∧ (triggerCheck s).ckpt.interval = s.ckpt.interval ∧ (triggerCheck
    s).ckpt.intervalCount = s.ckpt.intervalCount ∧ (triggerCheck s).ckpt.intervalMicros =
    s.ckpt.intervalMicros ∧ (triggerCheck s).ckpt.ckptLevel = s.ckpt.ckptLevel ∧ (triggerCheck
    s).restore.unrestored = s.restore.unrestored ∧ (triggerCheck s).restore.overflow =
    s.restore.overflow ∧ (triggerCheck s).down.tags = s.down.tags ∧ (triggerCheck s).down.channel
    = s.down.channel ∧ (triggerCheck s).down.turn = s.down.turn ∧ (triggerCheck s).down.used =
    s.down.used ∧ (triggerCheck s).down.limit = s.down.limit ∧ (triggerCheck s).down.wHost =
    s.down.wHost ∧ (triggerCheck s).down.wPreserve = s.down.wPreserve ∧ (triggerCheck
    s).down.wRestore = s.down.wRestore ∧ (triggerCheck s).down.timeout = s.down.timeout ∧
    (triggerCheck s).casc.role = s.casc.role ∧ (triggerCheck s).casc.last = s.casc.last ∧
    (triggerCheck s).casc.agreementLimit = s.casc.agreementLimit ∧ (triggerCheck s).casc.holdLimit
    = s.casc.holdLimit ∧ (triggerCheck s).casc.lastRefusal = s.casc.lastRefusal ∧ (triggerCheck
    s).casc.badCount = s.casc.badCount ∧ (triggerCheck s).mgmt.decoder = s.mgmt.decoder ∧
    (triggerCheck s).mgmt.mcsLow = s.mgmt.mcsLow ∧ (triggerCheck s).mgmt.warmPending =
    s.mgmt.warmPending ∧ (triggerCheck s).mgmt.response = s.mgmt.response ∧ (triggerCheck
    s).mgmt.mask = s.mgmt.mask ∧ (triggerCheck s).pins = s.pins ∧ (triggerCheck s).pending =
    s.pending := by
  unfold triggerCheck; (repeat' split) <;> simp

@[simp] theorem controlFollow_frame (before s : State) :
    (controlFollow before s).up = s.up ∧ (controlFollow before s).cls = s.cls ∧ (controlFollow
    before s).log.configured = s.log.configured ∧ (controlFollow before s).log.base = s.log.base ∧
    (controlFollow before s).log.capacity = s.log.capacity ∧ (controlFollow before s).log.policy =
    s.log.policy ∧ (controlFollow before s).log.stallLimit = s.log.stallLimit ∧ (controlFollow
    before s).log.watermark = s.log.watermark ∧ (controlFollow before s).log.finished =
    s.log.finished ∧ (controlFollow before s).ckpt.lineEnable = s.ckpt.lineEnable ∧ (controlFollow
    before s).ckpt.autoTake = s.ckpt.autoTake ∧ (controlFollow before s).ckpt.rolling =
    s.ckpt.rolling ∧ (controlFollow before s).ckpt.interval = s.ckpt.interval ∧ (controlFollow
    before s).ckpt.intervalCount = s.ckpt.intervalCount ∧ (controlFollow before
    s).ckpt.intervalMicros = s.ckpt.intervalMicros ∧ (controlFollow before s).ckpt.ckptLevel =
    s.ckpt.ckptLevel ∧ (controlFollow before s).restore.unrestored = s.restore.unrestored ∧
    (controlFollow before s).restore.overflow = s.restore.overflow ∧ (controlFollow before
    s).down.tags = s.down.tags ∧ (controlFollow before s).down.channel = s.down.channel ∧
    (controlFollow before s).down.turn = s.down.turn ∧ (controlFollow before s).down.used =
    s.down.used ∧ (controlFollow before s).down.limit = s.down.limit ∧ (controlFollow before
    s).down.wHost = s.down.wHost ∧ (controlFollow before s).down.wPreserve = s.down.wPreserve ∧
    (controlFollow before s).down.wRestore = s.down.wRestore ∧ (controlFollow before
    s).down.timeout = s.down.timeout ∧ (controlFollow before s).casc.role = s.casc.role ∧
    (controlFollow before s).casc.last = s.casc.last ∧ (controlFollow before
    s).casc.agreementLimit = s.casc.agreementLimit ∧ (controlFollow before s).casc.holdLimit =
    s.casc.holdLimit ∧ (controlFollow before s).casc.lastRefusal = s.casc.lastRefusal ∧
    (controlFollow before s).casc.badCount = s.casc.badCount ∧ (controlFollow before
    s).mgmt.decoder = s.mgmt.decoder ∧ (controlFollow before s).mgmt.mcsLow = s.mgmt.mcsLow ∧
    (controlFollow before s).mgmt.warmPending = s.mgmt.warmPending ∧ (controlFollow before
    s).mgmt.response = s.mgmt.response ∧ (controlFollow before s).mgmt.mask = s.mgmt.mask ∧
    (controlFollow before s).pins = s.pins ∧ (controlFollow before s).pending = s.pending := by
  unfold controlFollow; dsimp only; (repeat' split) <;> simp

@[simp] theorem latchFlag_frame (src : Source) (s : State) :
    (latchFlag src s).up = s.up ∧ (latchFlag src s).cls = s.cls ∧ (latchFlag src s).entries =
    s.entries ∧ (latchFlag src s).filter = s.filter ∧ (latchFlag src s).log = s.log ∧ (latchFlag
    src s).ckpt.stack = s.ckpt.stack ∧ (latchFlag src s).ckpt.nextNumber = s.ckpt.nextNumber ∧
    (latchFlag src s).ckpt.generation = s.ckpt.generation ∧ (latchFlag src s).ckpt.fence =
    s.ckpt.fence ∧ (latchFlag src s).ckpt.ctrl = s.ckpt.ctrl ∧ (latchFlag src s).ckpt.lineEnable =
    s.ckpt.lineEnable ∧ (latchFlag src s).ckpt.autoTake = s.ckpt.autoTake ∧ (latchFlag src
    s).ckpt.rolling = s.ckpt.rolling ∧ (latchFlag src s).ckpt.interval = s.ckpt.interval ∧
    (latchFlag src s).ckpt.intervalCount = s.ckpt.intervalCount ∧ (latchFlag src
    s).ckpt.intervalMicros = s.ckpt.intervalMicros ∧ (latchFlag src s).ckpt.ckptLevel =
    s.ckpt.ckptLevel ∧ (latchFlag src s).restore = s.restore ∧ (latchFlag src s).down = s.down ∧
    (latchFlag src s).casc = s.casc ∧ (latchFlag src s).mgmt.decoder = s.mgmt.decoder ∧ (latchFlag
    src s).mgmt.mcsLow = s.mgmt.mcsLow ∧ (latchFlag src s).mgmt.warmPending = s.mgmt.warmPending ∧
    (latchFlag src s).mgmt.response = s.mgmt.response ∧ (latchFlag src s).mgmt.mask = s.mgmt.mask
    ∧ (latchFlag src s).mgmt.result = s.mgmt.result ∧ (latchFlag src s).pins = s.pins ∧ (latchFlag
    src s).pending = s.pending := by
  unfold latchFlag; dsimp only; (repeat' split) <;> simp

@[simp] theorem tellGranted_frame (o : Owner) (t : Fin 32) (s : State) :
    (tellGranted o t s).up = s.up ∧ (tellGranted o t s).cls = s.cls ∧ (tellGranted o t s).filter =
    s.filter ∧ (tellGranted o t s).log = s.log ∧ (tellGranted o t s).ckpt = s.ckpt ∧ (tellGranted
    o t s).restore = s.restore ∧ (tellGranted o t s).down = s.down ∧ (tellGranted o t s).casc =
    s.casc ∧ (tellGranted o t s).mgmt = s.mgmt ∧ (tellGranted o t s).pins = s.pins ∧ (tellGranted
    o t s).pending = s.pending := by
  unfold tellGranted; (repeat' split) <;> simp

@[simp] theorem grantUnder_frame (c : DownClass) (used : Nat) (t : Fin 32) (r : DownReq) (s : State) :
    (grantUnder c used t r s).up = s.up ∧ (grantUnder c used t r s).cls = s.cls ∧ (grantUnder c
    used t r s).filter = s.filter ∧ (grantUnder c used t r s).log = s.log ∧ (grantUnder c used t r
    s).ckpt = s.ckpt ∧ (grantUnder c used t r s).restore = s.restore ∧ (grantUnder c used t r
    s).down.limit = s.down.limit ∧ (grantUnder c used t r s).down.wHost = s.down.wHost ∧
    (grantUnder c used t r s).down.wPreserve = s.down.wPreserve ∧ (grantUnder c used t r
    s).down.wRestore = s.down.wRestore ∧ (grantUnder c used t r s).down.timeout = s.down.timeout ∧
    (grantUnder c used t r s).casc = s.casc ∧ (grantUnder c used t r s).mgmt = s.mgmt ∧
    (grantUnder c used t r s).pins = s.pins ∧ (grantUnder c used t r s).pending = s.pending := by
  cases c <;> simp [grantUnder, popReady]

@[simp] theorem grantIfDue_frame (s : State) :
    (grantIfDue s).up = s.up ∧ (grantIfDue s).cls = s.cls ∧ (grantIfDue s).filter = s.filter ∧
    (grantIfDue s).log = s.log ∧ (grantIfDue s).ckpt = s.ckpt ∧ (grantIfDue s).restore = s.restore
    ∧ (grantIfDue s).down.limit = s.down.limit ∧ (grantIfDue s).down.wHost = s.down.wHost ∧
    (grantIfDue s).down.wPreserve = s.down.wPreserve ∧ (grantIfDue s).down.wRestore =
    s.down.wRestore ∧ (grantIfDue s).down.timeout = s.down.timeout ∧ (grantIfDue s).casc = s.casc
    ∧ (grantIfDue s).mgmt = s.mgmt ∧ (grantIfDue s).pins = s.pins ∧ (grantIfDue s).pending =
    s.pending := by
  unfold grantIfDue; (repeat' split) <;> simp

@[simp] theorem freeTheTag_frame (t : Fin 32) (s : State) :
    (freeTheTag t s).up = s.up ∧ (freeTheTag t s).cls = s.cls ∧ (freeTheTag t s).entries =
    s.entries ∧ (freeTheTag t s).filter = s.filter ∧ (freeTheTag t s).log = s.log ∧ (freeTheTag t
    s).ckpt = s.ckpt ∧ (freeTheTag t s).restore = s.restore ∧ (freeTheTag t s).down.hostReady =
    s.down.hostReady ∧ (freeTheTag t s).down.preserveReady = s.down.preserveReady ∧ (freeTheTag t
    s).down.restoreReady = s.down.restoreReady ∧ (freeTheTag t s).down.channel = s.down.channel ∧
    (freeTheTag t s).down.turn = s.down.turn ∧ (freeTheTag t s).down.used = s.down.used ∧
    (freeTheTag t s).down.limit = s.down.limit ∧ (freeTheTag t s).down.wHost = s.down.wHost ∧
    (freeTheTag t s).down.wPreserve = s.down.wPreserve ∧ (freeTheTag t s).down.wRestore =
    s.down.wRestore ∧ (freeTheTag t s).down.timeout = s.down.timeout ∧ (freeTheTag t s).casc =
    s.casc ∧ (freeTheTag t s).mgmt = s.mgmt ∧ (freeTheTag t s).pins = s.pins ∧ (freeTheTag t
    s).pending = s.pending := by
  simp [freeTheTag]

@[simp] theorem setTag_frame (t : Fin 32) (st : TagState) (s : State) :
    (setTag t st s).up = s.up ∧ (setTag t st s).cls = s.cls ∧ (setTag t st s).entries = s.entries
    ∧ (setTag t st s).filter = s.filter ∧ (setTag t st s).log = s.log ∧ (setTag t st s).ckpt =
    s.ckpt ∧ (setTag t st s).restore = s.restore ∧ (setTag t st s).down.hostReady =
    s.down.hostReady ∧ (setTag t st s).down.preserveReady = s.down.preserveReady ∧ (setTag t st
    s).down.restoreReady = s.down.restoreReady ∧ (setTag t st s).down.channel = s.down.channel ∧
    (setTag t st s).down.turn = s.down.turn ∧ (setTag t st s).down.used = s.down.used ∧ (setTag t
    st s).down.limit = s.down.limit ∧ (setTag t st s).down.wHost = s.down.wHost ∧ (setTag t st
    s).down.wPreserve = s.down.wPreserve ∧ (setTag t st s).down.wRestore = s.down.wRestore ∧
    (setTag t st s).down.timeout = s.down.timeout ∧ (setTag t st s).casc = s.casc ∧ (setTag t st
    s).mgmt = s.mgmt ∧ (setTag t st s).pins = s.pins ∧ (setTag t st s).pending = s.pending := by
  unfold setTag; simp

@[simp] theorem hostEnd_frame (n : Fin 32) (st : UpStatus) (data : LineData) (s : State) :
    (hostEnd n st data s).up = s.up ∧ (hostEnd n st data s).cls = s.cls ∧ (hostEnd n st data
    s).filter = s.filter ∧ (hostEnd n st data s).log.configured = s.log.configured ∧ (hostEnd n st
    data s).log.base = s.log.base ∧ (hostEnd n st data s).log.capacity = s.log.capacity ∧ (hostEnd
    n st data s).log.policy = s.log.policy ∧ (hostEnd n st data s).log.stallLimit =
    s.log.stallLimit ∧ (hostEnd n st data s).log.watermark = s.log.watermark ∧ (hostEnd n st data
    s).log.tail = s.log.tail ∧ (hostEnd n st data s).log.head = s.log.head ∧ (hostEnd n st data
    s).log.finished = s.log.finished ∧ (hostEnd n st data s).ckpt.nextNumber = s.ckpt.nextNumber ∧
    (hostEnd n st data s).ckpt.generation = s.ckpt.generation ∧ (hostEnd n st data s).ckpt.fence =
    s.ckpt.fence ∧ (hostEnd n st data s).ckpt.ctrl = s.ckpt.ctrl ∧ (hostEnd n st data
    s).ckpt.lineFlag = s.ckpt.lineFlag ∧ (hostEnd n st data s).ckpt.timerFlag = s.ckpt.timerFlag ∧
    (hostEnd n st data s).ckpt.cascadeFlag = s.ckpt.cascadeFlag ∧ (hostEnd n st data
    s).ckpt.lineEnable = s.ckpt.lineEnable ∧ (hostEnd n st data s).ckpt.autoTake = s.ckpt.autoTake
    ∧ (hostEnd n st data s).ckpt.rolling = s.ckpt.rolling ∧ (hostEnd n st data s).ckpt.interval =
    s.ckpt.interval ∧ (hostEnd n st data s).ckpt.intervalCount = s.ckpt.intervalCount ∧ (hostEnd n
    st data s).ckpt.intervalMicros = s.ckpt.intervalMicros ∧ (hostEnd n st data s).ckpt.ckptLevel
    = s.ckpt.ckptLevel ∧ (hostEnd n st data s).restore = s.restore ∧ (hostEnd n st data
    s).down.restoreReady = s.down.restoreReady ∧ (hostEnd n st data s).down.tags = s.down.tags ∧
    (hostEnd n st data s).down.channel = s.down.channel ∧ (hostEnd n st data s).down.turn =
    s.down.turn ∧ (hostEnd n st data s).down.used = s.down.used ∧ (hostEnd n st data s).down.limit
    = s.down.limit ∧ (hostEnd n st data s).down.wHost = s.down.wHost ∧ (hostEnd n st data
    s).down.wPreserve = s.down.wPreserve ∧ (hostEnd n st data s).down.wRestore = s.down.wRestore ∧
    (hostEnd n st data s).down.timeout = s.down.timeout ∧ (hostEnd n st data s).casc = s.casc ∧
    (hostEnd n st data s).mgmt.decoder = s.mgmt.decoder ∧ (hostEnd n st data s).mgmt.mcsLow =
    s.mgmt.mcsLow ∧ (hostEnd n st data s).mgmt.warmPending = s.mgmt.warmPending ∧ (hostEnd n st
    data s).mgmt.response = s.mgmt.response ∧ (hostEnd n st data s).mgmt.mask = s.mgmt.mask ∧
    (hostEnd n st data s).mgmt.result = s.mgmt.result ∧ (hostEnd n st data s).pins = s.pins ∧
    (hostEnd n st data s).pending = s.pending := by
  unfold hostEnd; simp

@[simp] theorem hostTimeout_frame (n : Fin 32) (s : State) :
    (hostTimeout n s).up = s.up ∧ (hostTimeout n s).cls = s.cls ∧ (hostTimeout n s).filter =
    s.filter ∧ (hostTimeout n s).log = s.log ∧ (hostTimeout n s).ckpt = s.ckpt ∧ (hostTimeout n
    s).restore = s.restore ∧ (hostTimeout n s).down = s.down ∧ (hostTimeout n s).casc = s.casc ∧
    (hostTimeout n s).mgmt = s.mgmt ∧ (hostTimeout n s).pins = s.pins ∧ (hostTimeout n s).pending
    = s.pending := modEntry_frame _ _ s

@[simp] theorem hostFreed_frame (n : Fin 32) (s : State) :
    (hostFreed n s).up = s.up ∧ (hostFreed n s).cls = s.cls ∧ (hostFreed n s).filter = s.filter ∧
    (hostFreed n s).log.configured = s.log.configured ∧ (hostFreed n s).log.base = s.log.base ∧
    (hostFreed n s).log.capacity = s.log.capacity ∧ (hostFreed n s).log.policy = s.log.policy ∧
    (hostFreed n s).log.stallLimit = s.log.stallLimit ∧ (hostFreed n s).log.watermark =
    s.log.watermark ∧ (hostFreed n s).log.tail = s.log.tail ∧ (hostFreed n s).log.head =
    s.log.head ∧ (hostFreed n s).log.finished = s.log.finished ∧ (hostFreed n s).ckpt.nextNumber =
    s.ckpt.nextNumber ∧ (hostFreed n s).ckpt.generation = s.ckpt.generation ∧ (hostFreed n
    s).ckpt.fence = s.ckpt.fence ∧ (hostFreed n s).ckpt.ctrl = s.ckpt.ctrl ∧ (hostFreed n
    s).ckpt.lineFlag = s.ckpt.lineFlag ∧ (hostFreed n s).ckpt.timerFlag = s.ckpt.timerFlag ∧
    (hostFreed n s).ckpt.cascadeFlag = s.ckpt.cascadeFlag ∧ (hostFreed n s).ckpt.lineEnable =
    s.ckpt.lineEnable ∧ (hostFreed n s).ckpt.autoTake = s.ckpt.autoTake ∧ (hostFreed n
    s).ckpt.rolling = s.ckpt.rolling ∧ (hostFreed n s).ckpt.interval = s.ckpt.interval ∧
    (hostFreed n s).ckpt.intervalCount = s.ckpt.intervalCount ∧ (hostFreed n
    s).ckpt.intervalMicros = s.ckpt.intervalMicros ∧ (hostFreed n s).ckpt.ckptLevel =
    s.ckpt.ckptLevel ∧ (hostFreed n s).restore = s.restore ∧ (hostFreed n s).down.restoreReady =
    s.down.restoreReady ∧ (hostFreed n s).down.tags = s.down.tags ∧ (hostFreed n s).down.channel =
    s.down.channel ∧ (hostFreed n s).down.turn = s.down.turn ∧ (hostFreed n s).down.used =
    s.down.used ∧ (hostFreed n s).down.limit = s.down.limit ∧ (hostFreed n s).down.wHost =
    s.down.wHost ∧ (hostFreed n s).down.wPreserve = s.down.wPreserve ∧ (hostFreed n
    s).down.wRestore = s.down.wRestore ∧ (hostFreed n s).down.timeout = s.down.timeout ∧
    (hostFreed n s).casc = s.casc ∧ (hostFreed n s).mgmt.decoder = s.mgmt.decoder ∧ (hostFreed n
    s).mgmt.mcsLow = s.mgmt.mcsLow ∧ (hostFreed n s).mgmt.warmPending = s.mgmt.warmPending ∧
    (hostFreed n s).mgmt.response = s.mgmt.response ∧ (hostFreed n s).mgmt.mask = s.mgmt.mask ∧
    (hostFreed n s).mgmt.result = s.mgmt.result ∧ (hostFreed n s).pins = s.pins ∧ (hostFreed n
    s).pending = s.pending := by
  unfold hostFreed; simp

@[simp] theorem deliver_frame (o : Owner) (e : End) (s : State) :
    (deliver o e s).up = s.up ∧ (deliver o e s).cls = s.cls ∧ (deliver o e s).log.configured =
    s.log.configured ∧ (deliver o e s).log.base = s.log.base ∧ (deliver o e s).log.capacity =
    s.log.capacity ∧ (deliver o e s).log.policy = s.log.policy ∧ (deliver o e s).log.stallLimit =
    s.log.stallLimit ∧ (deliver o e s).log.watermark = s.log.watermark ∧ (deliver o e
    s).ckpt.nextNumber = s.ckpt.nextNumber ∧ (deliver o e s).ckpt.lineFlag = s.ckpt.lineFlag ∧
    (deliver o e s).ckpt.timerFlag = s.ckpt.timerFlag ∧ (deliver o e s).ckpt.cascadeFlag =
    s.ckpt.cascadeFlag ∧ (deliver o e s).ckpt.lineEnable = s.ckpt.lineEnable ∧ (deliver o e
    s).ckpt.autoTake = s.ckpt.autoTake ∧ (deliver o e s).ckpt.rolling = s.ckpt.rolling ∧ (deliver
    o e s).ckpt.interval = s.ckpt.interval ∧ (deliver o e s).ckpt.intervalCount =
    s.ckpt.intervalCount ∧ (deliver o e s).ckpt.intervalMicros = s.ckpt.intervalMicros ∧ (deliver
    o e s).ckpt.ckptLevel = s.ckpt.ckptLevel ∧ (deliver o e s).down.tags = s.down.tags ∧ (deliver
    o e s).down.channel = s.down.channel ∧ (deliver o e s).down.turn = s.down.turn ∧ (deliver o e
    s).down.used = s.down.used ∧ (deliver o e s).down.limit = s.down.limit ∧ (deliver o e
    s).down.wHost = s.down.wHost ∧ (deliver o e s).down.wPreserve = s.down.wPreserve ∧ (deliver o
    e s).down.wRestore = s.down.wRestore ∧ (deliver o e s).down.timeout = s.down.timeout ∧
    (deliver o e s).casc.role = s.casc.role ∧ (deliver o e s).casc.last = s.casc.last ∧ (deliver o
    e s).casc.agreementLimit = s.casc.agreementLimit ∧ (deliver o e s).casc.holdLimit =
    s.casc.holdLimit ∧ (deliver o e s).casc.opId = s.casc.opId ∧ (deliver o e s).casc.abandoned =
    s.casc.abandoned ∧ (deliver o e s).casc.lastRefusal = s.casc.lastRefusal ∧ (deliver o e
    s).casc.badCount = s.casc.badCount ∧ (deliver o e s).casc.upList = s.casc.upList ∧ (deliver o
    e s).casc.downList = s.casc.downList ∧ (deliver o e s).mgmt.decoder = s.mgmt.decoder ∧
    (deliver o e s).mgmt.mcsLow = s.mgmt.mcsLow ∧ (deliver o e s).mgmt.warmPending =
    s.mgmt.warmPending ∧ (deliver o e s).mgmt.response = s.mgmt.response ∧ (deliver o e
    s).mgmt.mask = s.mgmt.mask ∧ (deliver o e s).pins = s.pins ∧ (deliver o e s).pending =
    s.pending := by
  unfold deliver; split <;> first | simp | (unfold onWalk; split <;> simp)

@[simp] theorem deliverFreed_frame (o : Owner) (s : State) :
    (deliverFreed o s).up = s.up ∧ (deliverFreed o s).cls = s.cls ∧ (deliverFreed o
    s).log.configured = s.log.configured ∧ (deliverFreed o s).log.base = s.log.base ∧
    (deliverFreed o s).log.capacity = s.log.capacity ∧ (deliverFreed o s).log.policy =
    s.log.policy ∧ (deliverFreed o s).log.stallLimit = s.log.stallLimit ∧ (deliverFreed o
    s).log.watermark = s.log.watermark ∧ (deliverFreed o s).ckpt.nextNumber = s.ckpt.nextNumber ∧
    (deliverFreed o s).ckpt.lineFlag = s.ckpt.lineFlag ∧ (deliverFreed o s).ckpt.timerFlag =
    s.ckpt.timerFlag ∧ (deliverFreed o s).ckpt.cascadeFlag = s.ckpt.cascadeFlag ∧ (deliverFreed o
    s).ckpt.lineEnable = s.ckpt.lineEnable ∧ (deliverFreed o s).ckpt.autoTake = s.ckpt.autoTake ∧
    (deliverFreed o s).ckpt.rolling = s.ckpt.rolling ∧ (deliverFreed o s).ckpt.interval =
    s.ckpt.interval ∧ (deliverFreed o s).ckpt.intervalCount = s.ckpt.intervalCount ∧ (deliverFreed
    o s).ckpt.intervalMicros = s.ckpt.intervalMicros ∧ (deliverFreed o s).ckpt.ckptLevel =
    s.ckpt.ckptLevel ∧ (deliverFreed o s).restore.unrestored = s.restore.unrestored ∧
    (deliverFreed o s).restore.overflow = s.restore.overflow ∧ (deliverFreed o s).down.tags =
    s.down.tags ∧ (deliverFreed o s).down.channel = s.down.channel ∧ (deliverFreed o s).down.turn
    = s.down.turn ∧ (deliverFreed o s).down.used = s.down.used ∧ (deliverFreed o s).down.limit =
    s.down.limit ∧ (deliverFreed o s).down.wHost = s.down.wHost ∧ (deliverFreed o
    s).down.wPreserve = s.down.wPreserve ∧ (deliverFreed o s).down.wRestore = s.down.wRestore ∧
    (deliverFreed o s).down.timeout = s.down.timeout ∧ (deliverFreed o s).casc.role = s.casc.role
    ∧ (deliverFreed o s).casc.last = s.casc.last ∧ (deliverFreed o s).casc.agreementLimit =
    s.casc.agreementLimit ∧ (deliverFreed o s).casc.holdLimit = s.casc.holdLimit ∧ (deliverFreed o
    s).casc.opId = s.casc.opId ∧ (deliverFreed o s).casc.abandoned = s.casc.abandoned ∧
    (deliverFreed o s).casc.lastRefusal = s.casc.lastRefusal ∧ (deliverFreed o s).casc.badCount =
    s.casc.badCount ∧ (deliverFreed o s).casc.upList = s.casc.upList ∧ (deliverFreed o
    s).casc.downList = s.casc.downList ∧ (deliverFreed o s).mgmt.decoder = s.mgmt.decoder ∧
    (deliverFreed o s).mgmt.mcsLow = s.mgmt.mcsLow ∧ (deliverFreed o s).mgmt.warmPending =
    s.mgmt.warmPending ∧ (deliverFreed o s).mgmt.response = s.mgmt.response ∧ (deliverFreed o
    s).mgmt.mask = s.mgmt.mask ∧ (deliverFreed o s).pins = s.pins ∧ (deliverFreed o s).pending =
    s.pending := by
  unfold deliverFreed; (repeat' split) <;> simp

@[simp] theorem offerIfDue_frame (s : State) :
    (offerIfDue s).up.offered = s.up.offered ∧ (offerIfDue s).up.nextSeq = s.up.nextSeq ∧
    (offerIfDue s).up.liveTags = s.up.liveTags ∧ (offerIfDue s).up.refusals = s.up.refusals ∧
    (offerIfDue s).up.queue = s.up.queue ∧ (offerIfDue s).up.fenceList = s.up.fenceList ∧
    (offerIfDue s).cls = s.cls ∧ (offerIfDue s).entries = s.entries ∧ (offerIfDue s).filter =
    s.filter ∧ (offerIfDue s).log = s.log ∧ (offerIfDue s).ckpt = s.ckpt ∧ (offerIfDue s).restore
    = s.restore ∧ (offerIfDue s).down = s.down ∧ (offerIfDue s).casc = s.casc ∧ (offerIfDue
    s).mgmt = s.mgmt ∧ (offerIfDue s).pins = s.pins ∧ (offerIfDue s).pending = s.pending := by
  unfold offerIfDue; (repeat' split) <;> simp

@[simp] theorem takeRequest_frame (r : HostRequest) (s : State) :
    (takeRequest r s).up.offered = s.up.offered ∧ (takeRequest r s).up.fenceList = s.up.fenceList
    ∧ (takeRequest r s).up.channel = s.up.channel ∧ (takeRequest r s).cls = s.cls ∧ (takeRequest r
    s).entries = s.entries ∧ (takeRequest r s).filter = s.filter ∧ (takeRequest r s).log = s.log ∧
    (takeRequest r s).ckpt = s.ckpt ∧ (takeRequest r s).restore = s.restore ∧ (takeRequest r
    s).down = s.down ∧ (takeRequest r s).casc = s.casc ∧ (takeRequest r s).mgmt.decoder =
    s.mgmt.decoder ∧ (takeRequest r s).mgmt.mcsLow = s.mgmt.mcsLow ∧ (takeRequest r
    s).mgmt.warmPending = s.mgmt.warmPending ∧ (takeRequest r s).mgmt.response = s.mgmt.response ∧
    (takeRequest r s).mgmt.mask = s.mgmt.mask ∧ (takeRequest r s).mgmt.counters = s.mgmt.counters
    ∧ (takeRequest r s).mgmt.result = s.mgmt.result ∧ (takeRequest r s).pins = s.pins ∧
    (takeRequest r s).pending = s.pending := by
  unfold takeRequest; dsimp only; (repeat' split) <;> simp

@[simp] theorem takeOffered_frame (s : State) :
    (takeOffered s).up.fenceList = s.up.fenceList ∧ (takeOffered s).up.channel = s.up.channel ∧
    (takeOffered s).cls = s.cls ∧ (takeOffered s).entries = s.entries ∧ (takeOffered s).filter =
    s.filter ∧ (takeOffered s).log = s.log ∧ (takeOffered s).ckpt = s.ckpt ∧ (takeOffered
    s).restore = s.restore ∧ (takeOffered s).down = s.down ∧ (takeOffered s).casc = s.casc ∧
    (takeOffered s).mgmt.decoder = s.mgmt.decoder ∧ (takeOffered s).mgmt.mcsLow = s.mgmt.mcsLow ∧
    (takeOffered s).mgmt.warmPending = s.mgmt.warmPending ∧ (takeOffered s).mgmt.response =
    s.mgmt.response ∧ (takeOffered s).mgmt.mask = s.mgmt.mask ∧ (takeOffered s).mgmt.counters =
    s.mgmt.counters ∧ (takeOffered s).mgmt.result = s.mgmt.result ∧ (takeOffered s).pins = s.pins
    ∧ (takeOffered s).pending = s.pending := by
  unfold takeOffered; (repeat' split) <;> simp

@[simp] theorem portFollow_frame (s : State) :
    (portFollow s).up.offered = s.up.offered ∧ (portFollow s).up.nextSeq = s.up.nextSeq ∧
    (portFollow s).up.liveTags = s.up.liveTags ∧ (portFollow s).up.refusals = s.up.refusals ∧
    (portFollow s).up.queue = s.up.queue ∧ (portFollow s).up.fenceList = s.up.fenceList ∧
    (portFollow s).cls = s.cls ∧ (portFollow s).filter = s.filter ∧ (portFollow s).log = s.log ∧
    (portFollow s).ckpt = s.ckpt ∧ (portFollow s).restore = s.restore ∧ (portFollow s).down.limit
    = s.down.limit ∧ (portFollow s).down.wHost = s.down.wHost ∧ (portFollow s).down.wPreserve =
    s.down.wPreserve ∧ (portFollow s).down.wRestore = s.down.wRestore ∧ (portFollow
    s).down.timeout = s.down.timeout ∧ (portFollow s).casc = s.casc ∧ (portFollow s).mgmt = s.mgmt
    ∧ (portFollow s).pins = s.pins ∧ (portFollow s).pending = s.pending := by
  unfold portFollow; simp

@[simp] theorem warmReset_frame (s : State) :
    (warmReset s).cls = s.cls ∧ (warmReset s).pins = s.pins ∧ (warmReset s).pending = s.pending := by
  unfold warmReset; dsimp only; simp

@[simp] theorem powerOnReset_frame (s : State) :
    (powerOnReset s).pending = s.pending := rfl

@[simp] theorem startPendingReset_frame (s : State) :
    (startPendingReset s).cls = s.cls ∧ (startPendingReset s).pending = s.pending := by
  unfold startPendingReset; (repeat' split) <;> simp

@[simp] theorem admitRequest_frame (n : Fin 32) (r : Accepted) (fromList : Bool) (s : State) :
    (admitRequest n r fromList s).up.offered = s.up.offered ∧ (admitRequest n r fromList s).up.nextSeq =
    s.up.nextSeq ∧ (admitRequest n r fromList s).up.liveTags = s.up.liveTags ∧ (admitRequest n r fromList
    s).up.refusals = s.up.refusals ∧ (admitRequest n r fromList s).up.channel = s.up.channel ∧ (admitRequest n r
    fromList s).cls = s.cls ∧ (admitRequest n r fromList s).filter = s.filter ∧ (admitRequest n r fromList
    s).log.configured = s.log.configured ∧ (admitRequest n r fromList s).log.base = s.log.base ∧ (admitRequest n
    r fromList s).log.capacity = s.log.capacity ∧ (admitRequest n r fromList s).log.policy = s.log.policy
    ∧ (admitRequest n r fromList s).log.stallLimit = s.log.stallLimit ∧ (admitRequest n r fromList
    s).log.watermark = s.log.watermark ∧ (admitRequest n r fromList s).log.tail = s.log.tail ∧ (admitRequest n r
    fromList s).log.head = s.log.head ∧ (admitRequest n r fromList s).log.finished = s.log.finished ∧
    (admitRequest n r fromList s).ckpt.nextNumber = s.ckpt.nextNumber ∧ (admitRequest n r fromList
    s).ckpt.generation = s.ckpt.generation ∧ (admitRequest n r fromList s).ckpt.fence = s.ckpt.fence ∧
    (admitRequest n r fromList s).ckpt.ctrl = s.ckpt.ctrl ∧ (admitRequest n r fromList s).ckpt.lineFlag =
    s.ckpt.lineFlag ∧ (admitRequest n r fromList s).ckpt.timerFlag = s.ckpt.timerFlag ∧ (admitRequest n r
    fromList s).ckpt.cascadeFlag = s.ckpt.cascadeFlag ∧ (admitRequest n r fromList s).ckpt.lineEnable =
    s.ckpt.lineEnable ∧ (admitRequest n r fromList s).ckpt.autoTake = s.ckpt.autoTake ∧ (admitRequest n r
    fromList s).ckpt.rolling = s.ckpt.rolling ∧ (admitRequest n r fromList s).ckpt.interval =
    s.ckpt.interval ∧ (admitRequest n r fromList s).ckpt.intervalCount = s.ckpt.intervalCount ∧ (admitRequest n
    r fromList s).ckpt.intervalMicros = s.ckpt.intervalMicros ∧ (admitRequest n r fromList
    s).ckpt.ckptLevel = s.ckpt.ckptLevel ∧ (admitRequest n r fromList s).restore = s.restore ∧ (admitRequest n r
    fromList s).down.restoreReady = s.down.restoreReady ∧ (admitRequest n r fromList s).down.tags =
    s.down.tags ∧ (admitRequest n r fromList s).down.channel = s.down.channel ∧ (admitRequest n r fromList
    s).down.turn = s.down.turn ∧ (admitRequest n r fromList s).down.used = s.down.used ∧ (admitRequest n r
    fromList s).down.limit = s.down.limit ∧ (admitRequest n r fromList s).down.wHost = s.down.wHost ∧
    (admitRequest n r fromList s).down.wPreserve = s.down.wPreserve ∧ (admitRequest n r fromList
    s).down.wRestore = s.down.wRestore ∧ (admitRequest n r fromList s).down.timeout = s.down.timeout ∧
    (admitRequest n r fromList s).casc = s.casc ∧ (admitRequest n r fromList s).mgmt.decoder = s.mgmt.decoder ∧
    (admitRequest n r fromList s).mgmt.mcsLow = s.mgmt.mcsLow ∧ (admitRequest n r fromList s).mgmt.warmPending =
    s.mgmt.warmPending ∧ (admitRequest n r fromList s).mgmt.response = s.mgmt.response ∧ (admitRequest n r
    fromList s).mgmt.mask = s.mgmt.mask ∧ (admitRequest n r fromList s).mgmt.result = s.mgmt.result ∧
    (admitRequest n r fromList s).pins = s.pins ∧ (admitRequest n r fromList s).pending = s.pending := by
  unfold admitRequest; dsimp only; (repeat' split) <;> simp

@[simp] theorem takeResponse_frame (q : Nat) (s : State) :
    (takeResponse q s).up.offered = s.up.offered ∧ (takeResponse q s).up.nextSeq = s.up.nextSeq ∧
    (takeResponse q s).up.queue = s.up.queue ∧ (takeResponse q s).up.fenceList = s.up.fenceList ∧
    (takeResponse q s).cls = s.cls ∧ (takeResponse q s).filter = s.filter ∧ (takeResponse q s).log
    = s.log ∧ (takeResponse q s).ckpt = s.ckpt ∧ (takeResponse q s).restore = s.restore ∧
    (takeResponse q s).down = s.down ∧ (takeResponse q s).casc = s.casc ∧ (takeResponse q s).mgmt
    = s.mgmt ∧ (takeResponse q s).pins = s.pins ∧ (takeResponse q s).pending = s.pending := by
  unfold takeResponse; dsimp only; (repeat' split) <;> simp

@[simp] theorem takeDownRequest_frame (t : Fin 32) (s : State) :
    (takeDownRequest t s).up = s.up ∧ (takeDownRequest t s).cls = s.cls ∧ (takeDownRequest t
    s).entries = s.entries ∧ (takeDownRequest t s).filter = s.filter ∧ (takeDownRequest t s).log =
    s.log ∧ (takeDownRequest t s).ckpt = s.ckpt ∧ (takeDownRequest t s).restore = s.restore ∧
    (takeDownRequest t s).down.hostReady = s.down.hostReady ∧ (takeDownRequest t
    s).down.preserveReady = s.down.preserveReady ∧ (takeDownRequest t s).down.restoreReady =
    s.down.restoreReady ∧ (takeDownRequest t s).down.turn = s.down.turn ∧ (takeDownRequest t
    s).down.used = s.down.used ∧ (takeDownRequest t s).down.limit = s.down.limit ∧
    (takeDownRequest t s).down.wHost = s.down.wHost ∧ (takeDownRequest t s).down.wPreserve =
    s.down.wPreserve ∧ (takeDownRequest t s).down.wRestore = s.down.wRestore ∧ (takeDownRequest t
    s).down.timeout = s.down.timeout ∧ (takeDownRequest t s).casc = s.casc ∧ (takeDownRequest t
    s).mgmt = s.mgmt ∧ (takeDownRequest t s).pins = s.pins ∧ (takeDownRequest t s).pending =
    s.pending := by
  unfold takeDownRequest; dsimp only; (repeat' split) <;> simp

@[simp] theorem takeDownResponse_frame (t : Fin 32) (kind : RwKind) (st : DownStatus) (data : LineData) (s : State) :
    (takeDownResponse t kind st data s).up = s.up ∧ (takeDownResponse t kind st data s).cls =
    s.cls ∧ (takeDownResponse t kind st data s).log.configured = s.log.configured ∧
    (takeDownResponse t kind st data s).log.base = s.log.base ∧ (takeDownResponse t kind st data
    s).log.capacity = s.log.capacity ∧ (takeDownResponse t kind st data s).log.policy =
    s.log.policy ∧ (takeDownResponse t kind st data s).log.stallLimit = s.log.stallLimit ∧
    (takeDownResponse t kind st data s).log.watermark = s.log.watermark ∧ (takeDownResponse t kind
    st data s).ckpt.nextNumber = s.ckpt.nextNumber ∧ (takeDownResponse t kind st data
    s).ckpt.lineFlag = s.ckpt.lineFlag ∧ (takeDownResponse t kind st data s).ckpt.timerFlag =
    s.ckpt.timerFlag ∧ (takeDownResponse t kind st data s).ckpt.cascadeFlag = s.ckpt.cascadeFlag ∧
    (takeDownResponse t kind st data s).ckpt.lineEnable = s.ckpt.lineEnable ∧ (takeDownResponse t
    kind st data s).ckpt.autoTake = s.ckpt.autoTake ∧ (takeDownResponse t kind st data
    s).ckpt.rolling = s.ckpt.rolling ∧ (takeDownResponse t kind st data s).ckpt.interval =
    s.ckpt.interval ∧ (takeDownResponse t kind st data s).ckpt.intervalCount =
    s.ckpt.intervalCount ∧ (takeDownResponse t kind st data s).ckpt.intervalMicros =
    s.ckpt.intervalMicros ∧ (takeDownResponse t kind st data s).ckpt.ckptLevel = s.ckpt.ckptLevel
    ∧ (takeDownResponse t kind st data s).down.channel = s.down.channel ∧ (takeDownResponse t kind
    st data s).down.turn = s.down.turn ∧ (takeDownResponse t kind st data s).down.used =
    s.down.used ∧ (takeDownResponse t kind st data s).down.limit = s.down.limit ∧
    (takeDownResponse t kind st data s).down.wHost = s.down.wHost ∧ (takeDownResponse t kind st
    data s).down.wPreserve = s.down.wPreserve ∧ (takeDownResponse t kind st data s).down.wRestore
    = s.down.wRestore ∧ (takeDownResponse t kind st data s).down.timeout = s.down.timeout ∧
    (takeDownResponse t kind st data s).casc.role = s.casc.role ∧ (takeDownResponse t kind st data
    s).casc.last = s.casc.last ∧ (takeDownResponse t kind st data s).casc.agreementLimit =
    s.casc.agreementLimit ∧ (takeDownResponse t kind st data s).casc.holdLimit = s.casc.holdLimit
    ∧ (takeDownResponse t kind st data s).casc.opId = s.casc.opId ∧ (takeDownResponse t kind st
    data s).casc.abandoned = s.casc.abandoned ∧ (takeDownResponse t kind st data
    s).casc.lastRefusal = s.casc.lastRefusal ∧ (takeDownResponse t kind st data s).casc.badCount =
    s.casc.badCount ∧ (takeDownResponse t kind st data s).casc.upList = s.casc.upList ∧
    (takeDownResponse t kind st data s).casc.downList = s.casc.downList ∧ (takeDownResponse t kind
    st data s).mgmt.decoder = s.mgmt.decoder ∧ (takeDownResponse t kind st data s).mgmt.mcsLow =
    s.mgmt.mcsLow ∧ (takeDownResponse t kind st data s).mgmt.warmPending = s.mgmt.warmPending ∧
    (takeDownResponse t kind st data s).mgmt.response = s.mgmt.response ∧ (takeDownResponse t kind
    st data s).mgmt.mask = s.mgmt.mask ∧ (takeDownResponse t kind st data s).pins = s.pins ∧
    (takeDownResponse t kind st data s).pending = s.pending := by
  unfold takeDownResponse; (repeat' split) <;> simp

@[simp] theorem timeOutTag_frame (t : Fin 32) (r : DownReq) (s : State) :
    (timeOutTag t r s).up = s.up ∧ (timeOutTag t r s).cls = s.cls ∧ (timeOutTag t r
    s).log.configured = s.log.configured ∧ (timeOutTag t r s).log.base = s.log.base ∧ (timeOutTag
    t r s).log.capacity = s.log.capacity ∧ (timeOutTag t r s).log.policy = s.log.policy ∧
    (timeOutTag t r s).log.stallLimit = s.log.stallLimit ∧ (timeOutTag t r s).log.watermark =
    s.log.watermark ∧ (timeOutTag t r s).ckpt.nextNumber = s.ckpt.nextNumber ∧ (timeOutTag t r
    s).ckpt.lineFlag = s.ckpt.lineFlag ∧ (timeOutTag t r s).ckpt.timerFlag = s.ckpt.timerFlag ∧
    (timeOutTag t r s).ckpt.cascadeFlag = s.ckpt.cascadeFlag ∧ (timeOutTag t r s).ckpt.lineEnable
    = s.ckpt.lineEnable ∧ (timeOutTag t r s).ckpt.autoTake = s.ckpt.autoTake ∧ (timeOutTag t r
    s).ckpt.rolling = s.ckpt.rolling ∧ (timeOutTag t r s).ckpt.interval = s.ckpt.interval ∧
    (timeOutTag t r s).ckpt.intervalCount = s.ckpt.intervalCount ∧ (timeOutTag t r
    s).ckpt.intervalMicros = s.ckpt.intervalMicros ∧ (timeOutTag t r s).ckpt.ckptLevel =
    s.ckpt.ckptLevel ∧ (timeOutTag t r s).down.channel = s.down.channel ∧ (timeOutTag t r
    s).down.turn = s.down.turn ∧ (timeOutTag t r s).down.used = s.down.used ∧ (timeOutTag t r
    s).down.limit = s.down.limit ∧ (timeOutTag t r s).down.wHost = s.down.wHost ∧ (timeOutTag t r
    s).down.wPreserve = s.down.wPreserve ∧ (timeOutTag t r s).down.wRestore = s.down.wRestore ∧
    (timeOutTag t r s).down.timeout = s.down.timeout ∧ (timeOutTag t r s).casc.role = s.casc.role
    ∧ (timeOutTag t r s).casc.last = s.casc.last ∧ (timeOutTag t r s).casc.agreementLimit =
    s.casc.agreementLimit ∧ (timeOutTag t r s).casc.holdLimit = s.casc.holdLimit ∧ (timeOutTag t r
    s).casc.opId = s.casc.opId ∧ (timeOutTag t r s).casc.abandoned = s.casc.abandoned ∧
    (timeOutTag t r s).casc.lastRefusal = s.casc.lastRefusal ∧ (timeOutTag t r s).casc.badCount =
    s.casc.badCount ∧ (timeOutTag t r s).casc.upList = s.casc.upList ∧ (timeOutTag t r
    s).casc.downList = s.casc.downList ∧ (timeOutTag t r s).mgmt.decoder = s.mgmt.decoder ∧
    (timeOutTag t r s).mgmt.mcsLow = s.mgmt.mcsLow ∧ (timeOutTag t r s).mgmt.warmPending =
    s.mgmt.warmPending ∧ (timeOutTag t r s).mgmt.response = s.mgmt.response ∧ (timeOutTag t r
    s).mgmt.mask = s.mgmt.mask ∧ (timeOutTag t r s).pins = s.pins ∧ (timeOutTag t r s).pending =
    s.pending := by
  unfold timeOutTag; dsimp only; simp

@[simp] theorem afterSettle_frame (before s : State) :
    (afterSettle before s).up.offered = s.up.offered ∧ (afterSettle before s).up.nextSeq =
    s.up.nextSeq ∧ (afterSettle before s).up.liveTags = s.up.liveTags ∧ (afterSettle before
    s).up.refusals = s.up.refusals ∧ (afterSettle before s).up.queue = s.up.queue ∧ (afterSettle
    before s).up.fenceList = s.up.fenceList ∧ (afterSettle before s).cls = s.cls ∧ (afterSettle
    before s).log.configured = s.log.configured ∧ (afterSettle before s).log.base = s.log.base ∧
    (afterSettle before s).log.capacity = s.log.capacity ∧ (afterSettle before s).log.policy =
    s.log.policy ∧ (afterSettle before s).log.stallLimit = s.log.stallLimit ∧ (afterSettle before
    s).log.watermark = s.log.watermark ∧ (afterSettle before s).log.finished = s.log.finished ∧
    (afterSettle before s).ckpt.lineEnable = s.ckpt.lineEnable ∧ (afterSettle before
    s).ckpt.autoTake = s.ckpt.autoTake ∧ (afterSettle before s).ckpt.rolling = s.ckpt.rolling ∧
    (afterSettle before s).ckpt.interval = s.ckpt.interval ∧ (afterSettle before
    s).ckpt.intervalCount = s.ckpt.intervalCount ∧ (afterSettle before s).ckpt.intervalMicros =
    s.ckpt.intervalMicros ∧ (afterSettle before s).ckpt.ckptLevel = s.ckpt.ckptLevel ∧
    (afterSettle before s).restore.unrestored = s.restore.unrestored ∧ (afterSettle before
    s).restore.overflow = s.restore.overflow ∧ (afterSettle before s).down.limit = s.down.limit ∧
    (afterSettle before s).down.wHost = s.down.wHost ∧ (afterSettle before s).down.wPreserve =
    s.down.wPreserve ∧ (afterSettle before s).down.wRestore = s.down.wRestore ∧ (afterSettle
    before s).down.timeout = s.down.timeout ∧ (afterSettle before s).casc.role = s.casc.role ∧
    (afterSettle before s).casc.last = s.casc.last ∧ (afterSettle before s).casc.agreementLimit =
    s.casc.agreementLimit ∧ (afterSettle before s).casc.holdLimit = s.casc.holdLimit ∧
    (afterSettle before s).casc.lastRefusal = s.casc.lastRefusal ∧ (afterSettle before
    s).casc.badCount = s.casc.badCount ∧ (afterSettle before s).mgmt.decoder = s.mgmt.decoder ∧
    (afterSettle before s).mgmt.mcsLow = s.mgmt.mcsLow ∧ (afterSettle before s).mgmt.warmPending =
    s.mgmt.warmPending ∧ (afterSettle before s).mgmt.response = s.mgmt.response ∧ (afterSettle
    before s).mgmt.mask = s.mgmt.mask ∧ (afterSettle before s).pins = s.pins ∧ (afterSettle before
    s).pending = s.pending := by
  unfold afterSettle; dsimp only; (repeat' split) <;> simp

@[simp] theorem discardBad_frame (s : State) :
    (discardBad s).up = s.up ∧ (discardBad s).cls = s.cls ∧ (discardBad s).entries = s.entries ∧
    (discardBad s).filter = s.filter ∧ (discardBad s).log = s.log ∧ (discardBad s).ckpt = s.ckpt ∧
    (discardBad s).restore = s.restore ∧ (discardBad s).down = s.down ∧ (discardBad s).casc.role =
    s.casc.role ∧ (discardBad s).casc.last = s.casc.last ∧ (discardBad s).casc.agreementLimit =
    s.casc.agreementLimit ∧ (discardBad s).casc.holdLimit = s.casc.holdLimit ∧ (discardBad
    s).casc.opId = s.casc.opId ∧ (discardBad s).casc.agreement = s.casc.agreement ∧ (discardBad
    s).casc.abandoned = s.casc.abandoned ∧ (discardBad s).casc.lastRefusal = s.casc.lastRefusal ∧
    (discardBad s).casc.upList = s.casc.upList ∧ (discardBad s).casc.downList = s.casc.downList ∧
    (discardBad s).mgmt.decoder = s.mgmt.decoder ∧ (discardBad s).mgmt.mcsLow = s.mgmt.mcsLow ∧
    (discardBad s).mgmt.warmPending = s.mgmt.warmPending ∧ (discardBad s).mgmt.response =
    s.mgmt.response ∧ (discardBad s).mgmt.mask = s.mgmt.mask ∧ (discardBad s).mgmt.counters =
    s.mgmt.counters ∧ (discardBad s).mgmt.result = s.mgmt.result ∧ (discardBad s).pins = s.pins ∧
    (discardBad s).pending = s.pending := by
  unfold discardBad; simp

@[simp] theorem beginRollback_frame (k : CkptNumber) (source : Source) (s : State) :
    (beginRollback k source s).up = s.up ∧ (beginRollback k source s).cls = s.cls ∧ (beginRollback
    k source s).filter = s.filter ∧ (beginRollback k source s).log.configured = s.log.configured ∧
    (beginRollback k source s).log.base = s.log.base ∧ (beginRollback k source s).log.capacity =
    s.log.capacity ∧ (beginRollback k source s).log.policy = s.log.policy ∧ (beginRollback k
    source s).log.stallLimit = s.log.stallLimit ∧ (beginRollback k source s).log.watermark =
    s.log.watermark ∧ (beginRollback k source s).log.tail = s.log.tail ∧ (beginRollback k source
    s).log.head = s.log.head ∧ (beginRollback k source s).log.finished = s.log.finished ∧
    (beginRollback k source s).ckpt.nextNumber = s.ckpt.nextNumber ∧ (beginRollback k source
    s).ckpt.generation = s.ckpt.generation ∧ (beginRollback k source s).ckpt.lineFlag =
    s.ckpt.lineFlag ∧ (beginRollback k source s).ckpt.timerFlag = s.ckpt.timerFlag ∧
    (beginRollback k source s).ckpt.cascadeFlag = s.ckpt.cascadeFlag ∧ (beginRollback k source
    s).ckpt.lineEnable = s.ckpt.lineEnable ∧ (beginRollback k source s).ckpt.autoTake =
    s.ckpt.autoTake ∧ (beginRollback k source s).ckpt.rolling = s.ckpt.rolling ∧ (beginRollback k
    source s).ckpt.interval = s.ckpt.interval ∧ (beginRollback k source s).ckpt.intervalCount =
    s.ckpt.intervalCount ∧ (beginRollback k source s).ckpt.intervalMicros = s.ckpt.intervalMicros
    ∧ (beginRollback k source s).ckpt.ckptLevel = s.ckpt.ckptLevel ∧ (beginRollback k source
    s).restore.walk = s.restore.walk ∧ (beginRollback k source s).down.restoreReady =
    s.down.restoreReady ∧ (beginRollback k source s).down.tags = s.down.tags ∧ (beginRollback k
    source s).down.channel = s.down.channel ∧ (beginRollback k source s).down.turn = s.down.turn ∧
    (beginRollback k source s).down.used = s.down.used ∧ (beginRollback k source s).down.limit =
    s.down.limit ∧ (beginRollback k source s).down.wHost = s.down.wHost ∧ (beginRollback k source
    s).down.wPreserve = s.down.wPreserve ∧ (beginRollback k source s).down.wRestore =
    s.down.wRestore ∧ (beginRollback k source s).down.timeout = s.down.timeout ∧ (beginRollback k
    source s).casc = s.casc ∧ (beginRollback k source s).mgmt.decoder = s.mgmt.decoder ∧
    (beginRollback k source s).mgmt.mcsLow = s.mgmt.mcsLow ∧ (beginRollback k source
    s).mgmt.warmPending = s.mgmt.warmPending ∧ (beginRollback k source s).mgmt.response =
    s.mgmt.response ∧ (beginRollback k source s).mgmt.mask = s.mgmt.mask ∧ (beginRollback k source
    s).mgmt.result = s.mgmt.result ∧ (beginRollback k source s).pins = s.pins ∧ (beginRollback k
    source s).pending = s.pending := by
  unfold beginRollback; simp

@[simp] theorem beginFollower_frame (g : Goal) (s : State) :
    (beginFollower g s).up = s.up ∧ (beginFollower g s).cls = s.cls ∧ (beginFollower g s).filter =
    s.filter ∧ (beginFollower g s).log.configured = s.log.configured ∧ (beginFollower g
    s).log.base = s.log.base ∧ (beginFollower g s).log.capacity = s.log.capacity ∧ (beginFollower
    g s).log.policy = s.log.policy ∧ (beginFollower g s).log.stallLimit = s.log.stallLimit ∧
    (beginFollower g s).log.watermark = s.log.watermark ∧ (beginFollower g s).log.tail =
    s.log.tail ∧ (beginFollower g s).log.head = s.log.head ∧ (beginFollower g s).log.finished =
    s.log.finished ∧ (beginFollower g s).ckpt.nextNumber = s.ckpt.nextNumber ∧ (beginFollower g
    s).ckpt.generation = s.ckpt.generation ∧ (beginFollower g s).ckpt.lineFlag = s.ckpt.lineFlag ∧
    (beginFollower g s).ckpt.timerFlag = s.ckpt.timerFlag ∧ (beginFollower g s).ckpt.cascadeFlag =
    s.ckpt.cascadeFlag ∧ (beginFollower g s).ckpt.lineEnable = s.ckpt.lineEnable ∧ (beginFollower
    g s).ckpt.autoTake = s.ckpt.autoTake ∧ (beginFollower g s).ckpt.rolling = s.ckpt.rolling ∧
    (beginFollower g s).ckpt.interval = s.ckpt.interval ∧ (beginFollower g s).ckpt.intervalCount =
    s.ckpt.intervalCount ∧ (beginFollower g s).ckpt.intervalMicros = s.ckpt.intervalMicros ∧
    (beginFollower g s).ckpt.ckptLevel = s.ckpt.ckptLevel ∧ (beginFollower g s).restore.walk =
    s.restore.walk ∧ (beginFollower g s).down.restoreReady = s.down.restoreReady ∧ (beginFollower
    g s).down.tags = s.down.tags ∧ (beginFollower g s).down.channel = s.down.channel ∧
    (beginFollower g s).down.turn = s.down.turn ∧ (beginFollower g s).down.used = s.down.used ∧
    (beginFollower g s).down.limit = s.down.limit ∧ (beginFollower g s).down.wHost = s.down.wHost
    ∧ (beginFollower g s).down.wPreserve = s.down.wPreserve ∧ (beginFollower g s).down.wRestore =
    s.down.wRestore ∧ (beginFollower g s).down.timeout = s.down.timeout ∧ (beginFollower g s).casc
    = s.casc ∧ (beginFollower g s).mgmt.decoder = s.mgmt.decoder ∧ (beginFollower g s).mgmt.mcsLow
    = s.mgmt.mcsLow ∧ (beginFollower g s).mgmt.warmPending = s.mgmt.warmPending ∧ (beginFollower g
    s).mgmt.response = s.mgmt.response ∧ (beginFollower g s).mgmt.mask = s.mgmt.mask ∧
    (beginFollower g s).mgmt.result = s.mgmt.result ∧ (beginFollower g s).pins = s.pins ∧
    (beginFollower g s).pending = s.pending := by
  unfold beginFollower; (repeat' split) <;> simp

@[simp] theorem acceptPrepare_frame (id : OpId) (g : Goal) (s : State) :
    (acceptPrepare id g s).up = s.up ∧ (acceptPrepare id g s).cls = s.cls ∧ (acceptPrepare id g
    s).filter = s.filter ∧ (acceptPrepare id g s).log.configured = s.log.configured ∧
    (acceptPrepare id g s).log.base = s.log.base ∧ (acceptPrepare id g s).log.capacity =
    s.log.capacity ∧ (acceptPrepare id g s).log.policy = s.log.policy ∧ (acceptPrepare id g
    s).log.stallLimit = s.log.stallLimit ∧ (acceptPrepare id g s).log.watermark = s.log.watermark
    ∧ (acceptPrepare id g s).log.tail = s.log.tail ∧ (acceptPrepare id g s).log.head = s.log.head
    ∧ (acceptPrepare id g s).log.finished = s.log.finished ∧ (acceptPrepare id g
    s).ckpt.nextNumber = s.ckpt.nextNumber ∧ (acceptPrepare id g s).ckpt.generation =
    s.ckpt.generation ∧ (acceptPrepare id g s).ckpt.lineFlag = s.ckpt.lineFlag ∧ (acceptPrepare id
    g s).ckpt.timerFlag = s.ckpt.timerFlag ∧ (acceptPrepare id g s).ckpt.cascadeFlag =
    s.ckpt.cascadeFlag ∧ (acceptPrepare id g s).ckpt.lineEnable = s.ckpt.lineEnable ∧
    (acceptPrepare id g s).ckpt.autoTake = s.ckpt.autoTake ∧ (acceptPrepare id g s).ckpt.rolling =
    s.ckpt.rolling ∧ (acceptPrepare id g s).ckpt.interval = s.ckpt.interval ∧ (acceptPrepare id g
    s).ckpt.intervalCount = s.ckpt.intervalCount ∧ (acceptPrepare id g s).ckpt.intervalMicros =
    s.ckpt.intervalMicros ∧ (acceptPrepare id g s).ckpt.ckptLevel = s.ckpt.ckptLevel ∧
    (acceptPrepare id g s).restore.walk = s.restore.walk ∧ (acceptPrepare id g
    s).down.restoreReady = s.down.restoreReady ∧ (acceptPrepare id g s).down.tags = s.down.tags ∧
    (acceptPrepare id g s).down.channel = s.down.channel ∧ (acceptPrepare id g s).down.turn =
    s.down.turn ∧ (acceptPrepare id g s).down.used = s.down.used ∧ (acceptPrepare id g
    s).down.limit = s.down.limit ∧ (acceptPrepare id g s).down.wHost = s.down.wHost ∧
    (acceptPrepare id g s).down.wPreserve = s.down.wPreserve ∧ (acceptPrepare id g
    s).down.wRestore = s.down.wRestore ∧ (acceptPrepare id g s).down.timeout = s.down.timeout ∧
    (acceptPrepare id g s).casc.role = s.casc.role ∧ (acceptPrepare id g s).casc.last =
    s.casc.last ∧ (acceptPrepare id g s).casc.agreementLimit = s.casc.agreementLimit ∧
    (acceptPrepare id g s).casc.holdLimit = s.casc.holdLimit ∧ (acceptPrepare id g s).casc.opId =
    s.casc.opId ∧ (acceptPrepare id g s).casc.abandoned = s.casc.abandoned ∧ (acceptPrepare id g
    s).casc.lastRefusal = s.casc.lastRefusal ∧ (acceptPrepare id g s).casc.badCount =
    s.casc.badCount ∧ (acceptPrepare id g s).mgmt.decoder = s.mgmt.decoder ∧ (acceptPrepare id g
    s).mgmt.mcsLow = s.mgmt.mcsLow ∧ (acceptPrepare id g s).mgmt.warmPending = s.mgmt.warmPending
    ∧ (acceptPrepare id g s).mgmt.response = s.mgmt.response ∧ (acceptPrepare id g s).mgmt.mask =
    s.mgmt.mask ∧ (acceptPrepare id g s).mgmt.result = s.mgmt.result ∧ (acceptPrepare id g s).pins
    = s.pins ∧ (acceptPrepare id g s).pending = s.pending := by
  unfold acceptPrepare; dsimp only; simp

@[simp] theorem handlePrepare_frame (id : OpId) (kind : OpKind) (number : CkptNumber) (s : State) :
    (handlePrepare id kind number s).up.offered = s.up.offered ∧ (handlePrepare id kind number
    s).up.nextSeq = s.up.nextSeq ∧ (handlePrepare id kind number s).up.liveTags = s.up.liveTags ∧
    (handlePrepare id kind number s).up.refusals = s.up.refusals ∧ (handlePrepare id kind number
    s).up.queue = s.up.queue ∧ (handlePrepare id kind number s).up.fenceList = s.up.fenceList ∧
    (handlePrepare id kind number s).cls = s.cls ∧ (handlePrepare id kind number s).log.configured
    = s.log.configured ∧ (handlePrepare id kind number s).log.base = s.log.base ∧ (handlePrepare
    id kind number s).log.capacity = s.log.capacity ∧ (handlePrepare id kind number s).log.policy
    = s.log.policy ∧ (handlePrepare id kind number s).log.stallLimit = s.log.stallLimit ∧
    (handlePrepare id kind number s).log.watermark = s.log.watermark ∧ (handlePrepare id kind
    number s).log.finished = s.log.finished ∧ (handlePrepare id kind number s).ckpt.lineEnable =
    s.ckpt.lineEnable ∧ (handlePrepare id kind number s).ckpt.autoTake = s.ckpt.autoTake ∧
    (handlePrepare id kind number s).ckpt.rolling = s.ckpt.rolling ∧ (handlePrepare id kind number
    s).ckpt.interval = s.ckpt.interval ∧ (handlePrepare id kind number s).ckpt.intervalCount =
    s.ckpt.intervalCount ∧ (handlePrepare id kind number s).ckpt.intervalMicros =
    s.ckpt.intervalMicros ∧ (handlePrepare id kind number s).ckpt.ckptLevel = s.ckpt.ckptLevel ∧
    (handlePrepare id kind number s).down.limit = s.down.limit ∧ (handlePrepare id kind number
    s).down.wHost = s.down.wHost ∧ (handlePrepare id kind number s).down.wPreserve =
    s.down.wPreserve ∧ (handlePrepare id kind number s).down.wRestore = s.down.wRestore ∧
    (handlePrepare id kind number s).down.timeout = s.down.timeout ∧ (handlePrepare id kind number
    s).casc.role = s.casc.role ∧ (handlePrepare id kind number s).casc.last = s.casc.last ∧
    (handlePrepare id kind number s).casc.agreementLimit = s.casc.agreementLimit ∧ (handlePrepare
    id kind number s).casc.holdLimit = s.casc.holdLimit ∧ (handlePrepare id kind number
    s).casc.lastRefusal = s.casc.lastRefusal ∧ (handlePrepare id kind number s).casc.badCount =
    s.casc.badCount ∧ (handlePrepare id kind number s).mgmt.decoder = s.mgmt.decoder ∧
    (handlePrepare id kind number s).mgmt.mcsLow = s.mgmt.mcsLow ∧ (handlePrepare id kind number
    s).mgmt.warmPending = s.mgmt.warmPending ∧ (handlePrepare id kind number s).mgmt.response =
    s.mgmt.response ∧ (handlePrepare id kind number s).mgmt.mask = s.mgmt.mask ∧ (handlePrepare id
    kind number s).pins = s.pins ∧ (handlePrepare id kind number s).pending = s.pending := by
  unfold handlePrepare; dsimp only; (repeat' split) <;> simp

@[simp] theorem leaderRefused_frame (a : Agreement) (reason : RefuseReason) (s : State) :
    (leaderRefused a reason s).up = s.up ∧ (leaderRefused a reason s).cls = s.cls ∧ (leaderRefused
    a reason s).entries = s.entries ∧ (leaderRefused a reason s).filter = s.filter ∧
    (leaderRefused a reason s).log = s.log ∧ (leaderRefused a reason s).ckpt.stack = s.ckpt.stack
    ∧ (leaderRefused a reason s).ckpt.nextNumber = s.ckpt.nextNumber ∧ (leaderRefused a reason
    s).ckpt.generation = s.ckpt.generation ∧ (leaderRefused a reason s).ckpt.lineFlag =
    s.ckpt.lineFlag ∧ (leaderRefused a reason s).ckpt.timerFlag = s.ckpt.timerFlag ∧
    (leaderRefused a reason s).ckpt.cascadeFlag = s.ckpt.cascadeFlag ∧ (leaderRefused a reason
    s).ckpt.lineEnable = s.ckpt.lineEnable ∧ (leaderRefused a reason s).ckpt.autoTake =
    s.ckpt.autoTake ∧ (leaderRefused a reason s).ckpt.rolling = s.ckpt.rolling ∧ (leaderRefused a
    reason s).ckpt.interval = s.ckpt.interval ∧ (leaderRefused a reason s).ckpt.intervalCount =
    s.ckpt.intervalCount ∧ (leaderRefused a reason s).ckpt.intervalMicros = s.ckpt.intervalMicros
    ∧ (leaderRefused a reason s).ckpt.ckptLevel = s.ckpt.ckptLevel ∧ (leaderRefused a reason
    s).restore = s.restore ∧ (leaderRefused a reason s).down = s.down ∧ (leaderRefused a reason
    s).casc.role = s.casc.role ∧ (leaderRefused a reason s).casc.last = s.casc.last ∧
    (leaderRefused a reason s).casc.agreementLimit = s.casc.agreementLimit ∧ (leaderRefused a
    reason s).casc.holdLimit = s.casc.holdLimit ∧ (leaderRefused a reason s).casc.opId =
    s.casc.opId ∧ (leaderRefused a reason s).casc.abandoned = s.casc.abandoned ∧ (leaderRefused a
    reason s).casc.badCount = s.casc.badCount ∧ (leaderRefused a reason s).mgmt.decoder =
    s.mgmt.decoder ∧ (leaderRefused a reason s).mgmt.mcsLow = s.mgmt.mcsLow ∧ (leaderRefused a
    reason s).mgmt.warmPending = s.mgmt.warmPending ∧ (leaderRefused a reason s).mgmt.response =
    s.mgmt.response ∧ (leaderRefused a reason s).mgmt.mask = s.mgmt.mask ∧ (leaderRefused a reason
    s).mgmt.counters = s.mgmt.counters ∧ (leaderRefused a reason s).pins = s.pins ∧ (leaderRefused
    a reason s).pending = s.pending := by
  unfold leaderRefused; dsimp only; simp

@[simp] theorem leaderReady_frame (id : OpId) (v : ReadyVerdict) (s : State) :
    (leaderReady id v s).up = s.up ∧ (leaderReady id v s).cls = s.cls ∧ (leaderReady id v
    s).entries = s.entries ∧ (leaderReady id v s).filter = s.filter ∧ (leaderReady id v s).log =
    s.log ∧ (leaderReady id v s).ckpt.stack = s.ckpt.stack ∧ (leaderReady id v s).ckpt.nextNumber
    = s.ckpt.nextNumber ∧ (leaderReady id v s).ckpt.generation = s.ckpt.generation ∧ (leaderReady
    id v s).ckpt.lineFlag = s.ckpt.lineFlag ∧ (leaderReady id v s).ckpt.timerFlag =
    s.ckpt.timerFlag ∧ (leaderReady id v s).ckpt.cascadeFlag = s.ckpt.cascadeFlag ∧ (leaderReady
    id v s).ckpt.lineEnable = s.ckpt.lineEnable ∧ (leaderReady id v s).ckpt.autoTake =
    s.ckpt.autoTake ∧ (leaderReady id v s).ckpt.rolling = s.ckpt.rolling ∧ (leaderReady id v
    s).ckpt.interval = s.ckpt.interval ∧ (leaderReady id v s).ckpt.intervalCount =
    s.ckpt.intervalCount ∧ (leaderReady id v s).ckpt.intervalMicros = s.ckpt.intervalMicros ∧
    (leaderReady id v s).ckpt.ckptLevel = s.ckpt.ckptLevel ∧ (leaderReady id v s).restore =
    s.restore ∧ (leaderReady id v s).down = s.down ∧ (leaderReady id v s).casc.role = s.casc.role
    ∧ (leaderReady id v s).casc.last = s.casc.last ∧ (leaderReady id v s).casc.agreementLimit =
    s.casc.agreementLimit ∧ (leaderReady id v s).casc.holdLimit = s.casc.holdLimit ∧ (leaderReady
    id v s).casc.opId = s.casc.opId ∧ (leaderReady id v s).casc.abandoned = s.casc.abandoned ∧
    (leaderReady id v s).casc.badCount = s.casc.badCount ∧ (leaderReady id v s).mgmt.decoder =
    s.mgmt.decoder ∧ (leaderReady id v s).mgmt.mcsLow = s.mgmt.mcsLow ∧ (leaderReady id v
    s).mgmt.warmPending = s.mgmt.warmPending ∧ (leaderReady id v s).mgmt.response =
    s.mgmt.response ∧ (leaderReady id v s).mgmt.mask = s.mgmt.mask ∧ (leaderReady id v
    s).mgmt.counters = s.mgmt.counters ∧ (leaderReady id v s).pins = s.pins ∧ (leaderReady id v
    s).pending = s.pending := by
  unfold leaderReady; (repeat' split) <;> simp

@[simp] theorem followerReady_frame (id : OpId) (v : ReadyVerdict) (s : State) :
    (followerReady id v s).up = s.up ∧ (followerReady id v s).cls = s.cls ∧ (followerReady id v
    s).entries = s.entries ∧ (followerReady id v s).filter = s.filter ∧ (followerReady id v s).log
    = s.log ∧ (followerReady id v s).ckpt = s.ckpt ∧ (followerReady id v s).restore = s.restore ∧
    (followerReady id v s).down = s.down ∧ (followerReady id v s).casc.role = s.casc.role ∧
    (followerReady id v s).casc.last = s.casc.last ∧ (followerReady id v s).casc.agreementLimit =
    s.casc.agreementLimit ∧ (followerReady id v s).casc.holdLimit = s.casc.holdLimit ∧
    (followerReady id v s).casc.opId = s.casc.opId ∧ (followerReady id v s).casc.abandoned =
    s.casc.abandoned ∧ (followerReady id v s).casc.lastRefusal = s.casc.lastRefusal ∧
    (followerReady id v s).casc.badCount = s.casc.badCount ∧ (followerReady id v s).mgmt.decoder =
    s.mgmt.decoder ∧ (followerReady id v s).mgmt.mcsLow = s.mgmt.mcsLow ∧ (followerReady id v
    s).mgmt.warmPending = s.mgmt.warmPending ∧ (followerReady id v s).mgmt.response =
    s.mgmt.response ∧ (followerReady id v s).mgmt.mask = s.mgmt.mask ∧ (followerReady id v
    s).mgmt.counters = s.mgmt.counters ∧ (followerReady id v s).mgmt.result = s.mgmt.result ∧
    (followerReady id v s).pins = s.pins ∧ (followerReady id v s).pending = s.pending := by
  unfold followerReady; (repeat' split) <;> simp

@[simp] theorem handleReady_frame (id : OpId) (v : ReadyVerdict) (s : State) :
    (handleReady id v s).up.offered = s.up.offered ∧ (handleReady id v s).up.nextSeq =
    s.up.nextSeq ∧ (handleReady id v s).up.liveTags = s.up.liveTags ∧ (handleReady id v
    s).up.refusals = s.up.refusals ∧ (handleReady id v s).up.queue = s.up.queue ∧ (handleReady id
    v s).up.fenceList = s.up.fenceList ∧ (handleReady id v s).cls = s.cls ∧ (handleReady id v
    s).log.configured = s.log.configured ∧ (handleReady id v s).log.base = s.log.base ∧
    (handleReady id v s).log.capacity = s.log.capacity ∧ (handleReady id v s).log.policy =
    s.log.policy ∧ (handleReady id v s).log.stallLimit = s.log.stallLimit ∧ (handleReady id v
    s).log.watermark = s.log.watermark ∧ (handleReady id v s).log.finished = s.log.finished ∧
    (handleReady id v s).ckpt.lineEnable = s.ckpt.lineEnable ∧ (handleReady id v s).ckpt.autoTake
    = s.ckpt.autoTake ∧ (handleReady id v s).ckpt.rolling = s.ckpt.rolling ∧ (handleReady id v
    s).ckpt.interval = s.ckpt.interval ∧ (handleReady id v s).ckpt.intervalCount =
    s.ckpt.intervalCount ∧ (handleReady id v s).ckpt.intervalMicros = s.ckpt.intervalMicros ∧
    (handleReady id v s).ckpt.ckptLevel = s.ckpt.ckptLevel ∧ (handleReady id v
    s).restore.unrestored = s.restore.unrestored ∧ (handleReady id v s).restore.overflow =
    s.restore.overflow ∧ (handleReady id v s).down.limit = s.down.limit ∧ (handleReady id v
    s).down.wHost = s.down.wHost ∧ (handleReady id v s).down.wPreserve = s.down.wPreserve ∧
    (handleReady id v s).down.wRestore = s.down.wRestore ∧ (handleReady id v s).down.timeout =
    s.down.timeout ∧ (handleReady id v s).casc.role = s.casc.role ∧ (handleReady id v s).casc.last
    = s.casc.last ∧ (handleReady id v s).casc.agreementLimit = s.casc.agreementLimit ∧
    (handleReady id v s).casc.holdLimit = s.casc.holdLimit ∧ (handleReady id v s).casc.badCount =
    s.casc.badCount ∧ (handleReady id v s).mgmt.decoder = s.mgmt.decoder ∧ (handleReady id v
    s).mgmt.mcsLow = s.mgmt.mcsLow ∧ (handleReady id v s).mgmt.warmPending = s.mgmt.warmPending ∧
    (handleReady id v s).mgmt.response = s.mgmt.response ∧ (handleReady id v s).mgmt.mask =
    s.mgmt.mask ∧ (handleReady id v s).pins = s.pins ∧ (handleReady id v s).pending = s.pending := by
  unfold handleReady; dsimp only; (repeat' split) <;> simp

@[simp] theorem failApply_frame (id : OpId) (number : CkptNumber) (s : State) :
    (failApply id number s).up = s.up ∧ (failApply id number s).cls = s.cls ∧ (failApply id number
    s).entries = s.entries ∧ (failApply id number s).filter = s.filter ∧ (failApply id number
    s).log = s.log ∧ (failApply id number s).ckpt.stack = s.ckpt.stack ∧ (failApply id number
    s).ckpt.generation = s.ckpt.generation ∧ (failApply id number s).ckpt.lineFlag =
    s.ckpt.lineFlag ∧ (failApply id number s).ckpt.timerFlag = s.ckpt.timerFlag ∧ (failApply id
    number s).ckpt.cascadeFlag = s.ckpt.cascadeFlag ∧ (failApply id number s).ckpt.lineEnable =
    s.ckpt.lineEnable ∧ (failApply id number s).ckpt.autoTake = s.ckpt.autoTake ∧ (failApply id
    number s).ckpt.rolling = s.ckpt.rolling ∧ (failApply id number s).ckpt.interval =
    s.ckpt.interval ∧ (failApply id number s).ckpt.intervalCount = s.ckpt.intervalCount ∧
    (failApply id number s).ckpt.intervalMicros = s.ckpt.intervalMicros ∧ (failApply id number
    s).ckpt.ckptLevel = s.ckpt.ckptLevel ∧ (failApply id number s).restore = s.restore ∧
    (failApply id number s).down = s.down ∧ (failApply id number s).casc.role = s.casc.role ∧
    (failApply id number s).casc.last = s.casc.last ∧ (failApply id number s).casc.agreementLimit
    = s.casc.agreementLimit ∧ (failApply id number s).casc.holdLimit = s.casc.holdLimit ∧
    (failApply id number s).casc.opId = s.casc.opId ∧ (failApply id number s).casc.abandoned =
    s.casc.abandoned ∧ (failApply id number s).casc.lastRefusal = s.casc.lastRefusal ∧ (failApply
    id number s).casc.badCount = s.casc.badCount ∧ (failApply id number s).casc.upList =
    s.casc.upList ∧ (failApply id number s).casc.downList = s.casc.downList ∧ (failApply id number
    s).mgmt.decoder = s.mgmt.decoder ∧ (failApply id number s).mgmt.mcsLow = s.mgmt.mcsLow ∧
    (failApply id number s).mgmt.warmPending = s.mgmt.warmPending ∧ (failApply id number
    s).mgmt.response = s.mgmt.response ∧ (failApply id number s).mgmt.mask = s.mgmt.mask ∧
    (failApply id number s).mgmt.counters = s.mgmt.counters ∧ (failApply id number s).pins =
    s.pins ∧ (failApply id number s).pending = s.pending := by
  unfold failApply; dsimp only; simp

@[simp] theorem applyTake_frame (id : OpId) (number : CkptNumber) (s : State) :
    (applyTake id number s).up = s.up ∧ (applyTake id number s).cls = s.cls ∧ (applyTake id number
    s).log.configured = s.log.configured ∧ (applyTake id number s).log.base = s.log.base ∧
    (applyTake id number s).log.capacity = s.log.capacity ∧ (applyTake id number s).log.policy =
    s.log.policy ∧ (applyTake id number s).log.stallLimit = s.log.stallLimit ∧ (applyTake id
    number s).log.watermark = s.log.watermark ∧ (applyTake id number s).log.head = s.log.head ∧
    (applyTake id number s).log.finished = s.log.finished ∧ (applyTake id number s).ckpt.lineFlag
    = s.ckpt.lineFlag ∧ (applyTake id number s).ckpt.timerFlag = s.ckpt.timerFlag ∧ (applyTake id
    number s).ckpt.cascadeFlag = s.ckpt.cascadeFlag ∧ (applyTake id number s).ckpt.lineEnable =
    s.ckpt.lineEnable ∧ (applyTake id number s).ckpt.autoTake = s.ckpt.autoTake ∧ (applyTake id
    number s).ckpt.rolling = s.ckpt.rolling ∧ (applyTake id number s).ckpt.interval =
    s.ckpt.interval ∧ (applyTake id number s).ckpt.intervalCount = s.ckpt.intervalCount ∧
    (applyTake id number s).ckpt.intervalMicros = s.ckpt.intervalMicros ∧ (applyTake id number
    s).ckpt.ckptLevel = s.ckpt.ckptLevel ∧ (applyTake id number s).restore = s.restore ∧
    (applyTake id number s).down.restoreReady = s.down.restoreReady ∧ (applyTake id number
    s).down.tags = s.down.tags ∧ (applyTake id number s).down.channel = s.down.channel ∧
    (applyTake id number s).down.turn = s.down.turn ∧ (applyTake id number s).down.used =
    s.down.used ∧ (applyTake id number s).down.limit = s.down.limit ∧ (applyTake id number
    s).down.wHost = s.down.wHost ∧ (applyTake id number s).down.wPreserve = s.down.wPreserve ∧
    (applyTake id number s).down.wRestore = s.down.wRestore ∧ (applyTake id number s).down.timeout
    = s.down.timeout ∧ (applyTake id number s).casc.role = s.casc.role ∧ (applyTake id number
    s).casc.last = s.casc.last ∧ (applyTake id number s).casc.agreementLimit =
    s.casc.agreementLimit ∧ (applyTake id number s).casc.holdLimit = s.casc.holdLimit ∧ (applyTake
    id number s).casc.opId = s.casc.opId ∧ (applyTake id number s).casc.abandoned =
    s.casc.abandoned ∧ (applyTake id number s).casc.lastRefusal = s.casc.lastRefusal ∧ (applyTake
    id number s).casc.badCount = s.casc.badCount ∧ (applyTake id number s).casc.upList =
    s.casc.upList ∧ (applyTake id number s).casc.downList = s.casc.downList ∧ (applyTake id number
    s).mgmt.decoder = s.mgmt.decoder ∧ (applyTake id number s).mgmt.mcsLow = s.mgmt.mcsLow ∧
    (applyTake id number s).mgmt.warmPending = s.mgmt.warmPending ∧ (applyTake id number
    s).mgmt.response = s.mgmt.response ∧ (applyTake id number s).mgmt.mask = s.mgmt.mask ∧
    (applyTake id number s).mgmt.counters = s.mgmt.counters ∧ (applyTake id number s).pins =
    s.pins ∧ (applyTake id number s).pending = s.pending := by
  unfold applyTake; dsimp only; (repeat' split) <;> simp

@[simp] theorem strayGo_frame (id : OpId) (s : State) :
    (strayGo id s).up = s.up ∧ (strayGo id s).cls = s.cls ∧ (strayGo id s).entries = s.entries ∧
    (strayGo id s).filter = s.filter ∧ (strayGo id s).log = s.log ∧ (strayGo id s).ckpt = s.ckpt ∧
    (strayGo id s).restore = s.restore ∧ (strayGo id s).down = s.down ∧ (strayGo id s).casc.role =
    s.casc.role ∧ (strayGo id s).casc.last = s.casc.last ∧ (strayGo id s).casc.agreementLimit =
    s.casc.agreementLimit ∧ (strayGo id s).casc.holdLimit = s.casc.holdLimit ∧ (strayGo id
    s).casc.opId = s.casc.opId ∧ (strayGo id s).casc.agreement = s.casc.agreement ∧ (strayGo id
    s).casc.abandoned = s.casc.abandoned ∧ (strayGo id s).casc.lastRefusal = s.casc.lastRefusal ∧
    (strayGo id s).casc.badCount = s.casc.badCount ∧ (strayGo id s).mgmt.decoder = s.mgmt.decoder
    ∧ (strayGo id s).mgmt.mcsLow = s.mgmt.mcsLow ∧ (strayGo id s).mgmt.warmPending =
    s.mgmt.warmPending ∧ (strayGo id s).mgmt.response = s.mgmt.response ∧ (strayGo id s).mgmt.mask
    = s.mgmt.mask ∧ (strayGo id s).mgmt.counters = s.mgmt.counters ∧ (strayGo id s).mgmt.result =
    s.mgmt.result ∧ (strayGo id s).pins = s.pins ∧ (strayGo id s).pending = s.pending := by
  unfold strayGo; simp

@[simp] theorem applyGo_frame (a : Agreement) (number : CkptNumber) (s : State) :
    (applyGo a number s).up = s.up ∧ (applyGo a number s).cls = s.cls ∧ (applyGo a number
    s).log.configured = s.log.configured ∧ (applyGo a number s).log.base = s.log.base ∧ (applyGo a
    number s).log.capacity = s.log.capacity ∧ (applyGo a number s).log.policy = s.log.policy ∧
    (applyGo a number s).log.stallLimit = s.log.stallLimit ∧ (applyGo a number s).log.watermark =
    s.log.watermark ∧ (applyGo a number s).log.finished = s.log.finished ∧ (applyGo a number
    s).ckpt.lineFlag = s.ckpt.lineFlag ∧ (applyGo a number s).ckpt.timerFlag = s.ckpt.timerFlag ∧
    (applyGo a number s).ckpt.cascadeFlag = s.ckpt.cascadeFlag ∧ (applyGo a number
    s).ckpt.lineEnable = s.ckpt.lineEnable ∧ (applyGo a number s).ckpt.autoTake = s.ckpt.autoTake
    ∧ (applyGo a number s).ckpt.rolling = s.ckpt.rolling ∧ (applyGo a number s).ckpt.interval =
    s.ckpt.interval ∧ (applyGo a number s).ckpt.intervalCount = s.ckpt.intervalCount ∧ (applyGo a
    number s).ckpt.intervalMicros = s.ckpt.intervalMicros ∧ (applyGo a number s).ckpt.ckptLevel =
    s.ckpt.ckptLevel ∧ (applyGo a number s).restore.unrestored = s.restore.unrestored ∧ (applyGo a
    number s).restore.overflow = s.restore.overflow ∧ (applyGo a number s).down.tags = s.down.tags
    ∧ (applyGo a number s).down.channel = s.down.channel ∧ (applyGo a number s).down.turn =
    s.down.turn ∧ (applyGo a number s).down.used = s.down.used ∧ (applyGo a number s).down.limit =
    s.down.limit ∧ (applyGo a number s).down.wHost = s.down.wHost ∧ (applyGo a number
    s).down.wPreserve = s.down.wPreserve ∧ (applyGo a number s).down.wRestore = s.down.wRestore ∧
    (applyGo a number s).down.timeout = s.down.timeout ∧ (applyGo a number s).casc.role =
    s.casc.role ∧ (applyGo a number s).casc.last = s.casc.last ∧ (applyGo a number
    s).casc.agreementLimit = s.casc.agreementLimit ∧ (applyGo a number s).casc.holdLimit =
    s.casc.holdLimit ∧ (applyGo a number s).casc.opId = s.casc.opId ∧ (applyGo a number
    s).casc.abandoned = s.casc.abandoned ∧ (applyGo a number s).casc.lastRefusal =
    s.casc.lastRefusal ∧ (applyGo a number s).casc.badCount = s.casc.badCount ∧ (applyGo a number
    s).mgmt.decoder = s.mgmt.decoder ∧ (applyGo a number s).mgmt.mcsLow = s.mgmt.mcsLow ∧ (applyGo
    a number s).mgmt.warmPending = s.mgmt.warmPending ∧ (applyGo a number s).mgmt.response =
    s.mgmt.response ∧ (applyGo a number s).mgmt.mask = s.mgmt.mask ∧ (applyGo a number
    s).mgmt.counters = s.mgmt.counters ∧ (applyGo a number s).pins = s.pins ∧ (applyGo a number
    s).pending = s.pending := by
  unfold applyGo; dsimp only; (repeat' split) <;> simp

@[simp] theorem handleGo_frame (id : OpId) (number : CkptNumber) (s : State) :
    (handleGo id number s).up.offered = s.up.offered ∧ (handleGo id number s).up.nextSeq =
    s.up.nextSeq ∧ (handleGo id number s).up.liveTags = s.up.liveTags ∧ (handleGo id number
    s).up.refusals = s.up.refusals ∧ (handleGo id number s).up.queue = s.up.queue ∧ (handleGo id
    number s).up.fenceList = s.up.fenceList ∧ (handleGo id number s).cls = s.cls ∧ (handleGo id
    number s).log.configured = s.log.configured ∧ (handleGo id number s).log.base = s.log.base ∧
    (handleGo id number s).log.capacity = s.log.capacity ∧ (handleGo id number s).log.policy =
    s.log.policy ∧ (handleGo id number s).log.stallLimit = s.log.stallLimit ∧ (handleGo id number
    s).log.watermark = s.log.watermark ∧ (handleGo id number s).log.finished = s.log.finished ∧
    (handleGo id number s).ckpt.lineEnable = s.ckpt.lineEnable ∧ (handleGo id number
    s).ckpt.autoTake = s.ckpt.autoTake ∧ (handleGo id number s).ckpt.rolling = s.ckpt.rolling ∧
    (handleGo id number s).ckpt.interval = s.ckpt.interval ∧ (handleGo id number
    s).ckpt.intervalCount = s.ckpt.intervalCount ∧ (handleGo id number s).ckpt.intervalMicros =
    s.ckpt.intervalMicros ∧ (handleGo id number s).ckpt.ckptLevel = s.ckpt.ckptLevel ∧ (handleGo
    id number s).restore.unrestored = s.restore.unrestored ∧ (handleGo id number
    s).restore.overflow = s.restore.overflow ∧ (handleGo id number s).down.limit = s.down.limit ∧
    (handleGo id number s).down.wHost = s.down.wHost ∧ (handleGo id number s).down.wPreserve =
    s.down.wPreserve ∧ (handleGo id number s).down.wRestore = s.down.wRestore ∧ (handleGo id
    number s).down.timeout = s.down.timeout ∧ (handleGo id number s).casc.role = s.casc.role ∧
    (handleGo id number s).casc.last = s.casc.last ∧ (handleGo id number s).casc.agreementLimit =
    s.casc.agreementLimit ∧ (handleGo id number s).casc.holdLimit = s.casc.holdLimit ∧ (handleGo
    id number s).casc.lastRefusal = s.casc.lastRefusal ∧ (handleGo id number s).casc.badCount =
    s.casc.badCount ∧ (handleGo id number s).mgmt.decoder = s.mgmt.decoder ∧ (handleGo id number
    s).mgmt.mcsLow = s.mgmt.mcsLow ∧ (handleGo id number s).mgmt.warmPending = s.mgmt.warmPending
    ∧ (handleGo id number s).mgmt.response = s.mgmt.response ∧ (handleGo id number s).mgmt.mask =
    s.mgmt.mask ∧ (handleGo id number s).pins = s.pins ∧ (handleGo id number s).pending =
    s.pending := by
  unfold handleGo; (repeat' split) <;> simp

@[simp] theorem leaveAgreement_frame (a : Agreement) (o : ResultOutcome) (s : State) :
    (leaveAgreement a o s).up = s.up ∧ (leaveAgreement a o s).cls = s.cls ∧ (leaveAgreement a o
    s).entries = s.entries ∧ (leaveAgreement a o s).filter = s.filter ∧ (leaveAgreement a o s).log
    = s.log ∧ (leaveAgreement a o s).ckpt.stack = s.ckpt.stack ∧ (leaveAgreement a o
    s).ckpt.nextNumber = s.ckpt.nextNumber ∧ (leaveAgreement a o s).ckpt.generation =
    s.ckpt.generation ∧ (leaveAgreement a o s).ckpt.lineFlag = s.ckpt.lineFlag ∧ (leaveAgreement a
    o s).ckpt.timerFlag = s.ckpt.timerFlag ∧ (leaveAgreement a o s).ckpt.cascadeFlag =
    s.ckpt.cascadeFlag ∧ (leaveAgreement a o s).ckpt.lineEnable = s.ckpt.lineEnable ∧
    (leaveAgreement a o s).ckpt.autoTake = s.ckpt.autoTake ∧ (leaveAgreement a o s).ckpt.rolling =
    s.ckpt.rolling ∧ (leaveAgreement a o s).ckpt.interval = s.ckpt.interval ∧ (leaveAgreement a o
    s).ckpt.intervalCount = s.ckpt.intervalCount ∧ (leaveAgreement a o s).ckpt.intervalMicros =
    s.ckpt.intervalMicros ∧ (leaveAgreement a o s).ckpt.ckptLevel = s.ckpt.ckptLevel ∧
    (leaveAgreement a o s).restore = s.restore ∧ (leaveAgreement a o s).down = s.down ∧
    (leaveAgreement a o s).casc.role = s.casc.role ∧ (leaveAgreement a o s).casc.last =
    s.casc.last ∧ (leaveAgreement a o s).casc.agreementLimit = s.casc.agreementLimit ∧
    (leaveAgreement a o s).casc.holdLimit = s.casc.holdLimit ∧ (leaveAgreement a o s).casc.opId =
    s.casc.opId ∧ (leaveAgreement a o s).casc.lastRefusal = s.casc.lastRefusal ∧ (leaveAgreement a
    o s).casc.badCount = s.casc.badCount ∧ (leaveAgreement a o s).casc.upList = s.casc.upList ∧
    (leaveAgreement a o s).casc.downList = s.casc.downList ∧ (leaveAgreement a o s).mgmt.decoder =
    s.mgmt.decoder ∧ (leaveAgreement a o s).mgmt.mcsLow = s.mgmt.mcsLow ∧ (leaveAgreement a o
    s).mgmt.warmPending = s.mgmt.warmPending ∧ (leaveAgreement a o s).mgmt.response =
    s.mgmt.response ∧ (leaveAgreement a o s).mgmt.mask = s.mgmt.mask ∧ (leaveAgreement a o
    s).mgmt.counters = s.mgmt.counters ∧ (leaveAgreement a o s).pins = s.pins ∧ (leaveAgreement a
    o s).pending = s.pending := by
  unfold leaveAgreement; simp

@[simp] theorem handleAbandon_frame (id : OpId) (s : State) :
    (handleAbandon id s).up = s.up ∧ (handleAbandon id s).cls = s.cls ∧ (handleAbandon id
    s).entries = s.entries ∧ (handleAbandon id s).filter = s.filter ∧ (handleAbandon id s).log =
    s.log ∧ (handleAbandon id s).ckpt.stack = s.ckpt.stack ∧ (handleAbandon id s).ckpt.nextNumber
    = s.ckpt.nextNumber ∧ (handleAbandon id s).ckpt.generation = s.ckpt.generation ∧
    (handleAbandon id s).ckpt.lineFlag = s.ckpt.lineFlag ∧ (handleAbandon id s).ckpt.timerFlag =
    s.ckpt.timerFlag ∧ (handleAbandon id s).ckpt.cascadeFlag = s.ckpt.cascadeFlag ∧ (handleAbandon
    id s).ckpt.lineEnable = s.ckpt.lineEnable ∧ (handleAbandon id s).ckpt.autoTake =
    s.ckpt.autoTake ∧ (handleAbandon id s).ckpt.rolling = s.ckpt.rolling ∧ (handleAbandon id
    s).ckpt.interval = s.ckpt.interval ∧ (handleAbandon id s).ckpt.intervalCount =
    s.ckpt.intervalCount ∧ (handleAbandon id s).ckpt.intervalMicros = s.ckpt.intervalMicros ∧
    (handleAbandon id s).ckpt.ckptLevel = s.ckpt.ckptLevel ∧ (handleAbandon id s).restore =
    s.restore ∧ (handleAbandon id s).down = s.down ∧ (handleAbandon id s).casc.role = s.casc.role
    ∧ (handleAbandon id s).casc.last = s.casc.last ∧ (handleAbandon id s).casc.agreementLimit =
    s.casc.agreementLimit ∧ (handleAbandon id s).casc.holdLimit = s.casc.holdLimit ∧
    (handleAbandon id s).casc.opId = s.casc.opId ∧ (handleAbandon id s).casc.lastRefusal =
    s.casc.lastRefusal ∧ (handleAbandon id s).casc.badCount = s.casc.badCount ∧ (handleAbandon id
    s).mgmt.decoder = s.mgmt.decoder ∧ (handleAbandon id s).mgmt.mcsLow = s.mgmt.mcsLow ∧
    (handleAbandon id s).mgmt.warmPending = s.mgmt.warmPending ∧ (handleAbandon id
    s).mgmt.response = s.mgmt.response ∧ (handleAbandon id s).mgmt.mask = s.mgmt.mask ∧
    (handleAbandon id s).mgmt.counters = s.mgmt.counters ∧ (handleAbandon id s).pins = s.pins ∧
    (handleAbandon id s).pending = s.pending := by
  unfold handleAbandon; (repeat' split) <;> simp

@[simp] theorem takeBelowDone_frame (a : Agreement) (o : DoneOutcome) (s : State) :
    (takeBelowDone a o s).up = s.up ∧ (takeBelowDone a o s).cls = s.cls ∧ (takeBelowDone a o
    s).entries = s.entries ∧ (takeBelowDone a o s).filter = s.filter ∧ (takeBelowDone a o s).log =
    s.log ∧ (takeBelowDone a o s).ckpt = s.ckpt ∧ (takeBelowDone a o s).restore = s.restore ∧
    (takeBelowDone a o s).down = s.down ∧ (takeBelowDone a o s).casc.role = s.casc.role ∧
    (takeBelowDone a o s).casc.last = s.casc.last ∧ (takeBelowDone a o s).casc.agreementLimit =
    s.casc.agreementLimit ∧ (takeBelowDone a o s).casc.holdLimit = s.casc.holdLimit ∧
    (takeBelowDone a o s).casc.opId = s.casc.opId ∧ (takeBelowDone a o s).casc.abandoned =
    s.casc.abandoned ∧ (takeBelowDone a o s).casc.lastRefusal = s.casc.lastRefusal ∧
    (takeBelowDone a o s).casc.badCount = s.casc.badCount ∧ (takeBelowDone a o s).casc.upList =
    s.casc.upList ∧ (takeBelowDone a o s).casc.downList = s.casc.downList ∧ (takeBelowDone a o
    s).mgmt.decoder = s.mgmt.decoder ∧ (takeBelowDone a o s).mgmt.mcsLow = s.mgmt.mcsLow ∧
    (takeBelowDone a o s).mgmt.warmPending = s.mgmt.warmPending ∧ (takeBelowDone a o
    s).mgmt.response = s.mgmt.response ∧ (takeBelowDone a o s).mgmt.mask = s.mgmt.mask ∧
    (takeBelowDone a o s).mgmt.counters = s.mgmt.counters ∧ (takeBelowDone a o s).mgmt.result =
    s.mgmt.result ∧ (takeBelowDone a o s).pins = s.pins ∧ (takeBelowDone a o s).pending =
    s.pending := by
  unfold takeBelowDone; (repeat' split) <;> simp

@[simp] theorem leaderDone_frame (id : OpId) (o : DoneOutcome) (s : State) :
    (leaderDone id o s).up = s.up ∧ (leaderDone id o s).cls = s.cls ∧ (leaderDone id o s).entries
    = s.entries ∧ (leaderDone id o s).filter = s.filter ∧ (leaderDone id o s).log = s.log ∧
    (leaderDone id o s).ckpt = s.ckpt ∧ (leaderDone id o s).restore = s.restore ∧ (leaderDone id o
    s).down = s.down ∧ (leaderDone id o s).casc.role = s.casc.role ∧ (leaderDone id o s).casc.last
    = s.casc.last ∧ (leaderDone id o s).casc.agreementLimit = s.casc.agreementLimit ∧ (leaderDone
    id o s).casc.holdLimit = s.casc.holdLimit ∧ (leaderDone id o s).casc.opId = s.casc.opId ∧
    (leaderDone id o s).casc.abandoned = s.casc.abandoned ∧ (leaderDone id o s).casc.lastRefusal =
    s.casc.lastRefusal ∧ (leaderDone id o s).casc.badCount = s.casc.badCount ∧ (leaderDone id o
    s).casc.upList = s.casc.upList ∧ (leaderDone id o s).casc.downList = s.casc.downList ∧
    (leaderDone id o s).mgmt.decoder = s.mgmt.decoder ∧ (leaderDone id o s).mgmt.mcsLow =
    s.mgmt.mcsLow ∧ (leaderDone id o s).mgmt.warmPending = s.mgmt.warmPending ∧ (leaderDone id o
    s).mgmt.response = s.mgmt.response ∧ (leaderDone id o s).mgmt.mask = s.mgmt.mask ∧ (leaderDone
    id o s).mgmt.counters = s.mgmt.counters ∧ (leaderDone id o s).mgmt.result = s.mgmt.result ∧
    (leaderDone id o s).pins = s.pins ∧ (leaderDone id o s).pending = s.pending := by
  unfold leaderDone; (repeat' split) <;> simp

@[simp] theorem followerDone_frame (id : OpId) (o : DoneOutcome) (s : State) :
    (followerDone id o s).up = s.up ∧ (followerDone id o s).cls = s.cls ∧ (followerDone id o
    s).entries = s.entries ∧ (followerDone id o s).filter = s.filter ∧ (followerDone id o s).log =
    s.log ∧ (followerDone id o s).ckpt = s.ckpt ∧ (followerDone id o s).restore = s.restore ∧
    (followerDone id o s).down = s.down ∧ (followerDone id o s).casc.role = s.casc.role ∧
    (followerDone id o s).casc.last = s.casc.last ∧ (followerDone id o s).casc.agreementLimit =
    s.casc.agreementLimit ∧ (followerDone id o s).casc.holdLimit = s.casc.holdLimit ∧
    (followerDone id o s).casc.opId = s.casc.opId ∧ (followerDone id o s).casc.abandoned =
    s.casc.abandoned ∧ (followerDone id o s).casc.lastRefusal = s.casc.lastRefusal ∧ (followerDone
    id o s).casc.badCount = s.casc.badCount ∧ (followerDone id o s).mgmt.decoder = s.mgmt.decoder
    ∧ (followerDone id o s).mgmt.mcsLow = s.mgmt.mcsLow ∧ (followerDone id o s).mgmt.warmPending =
    s.mgmt.warmPending ∧ (followerDone id o s).mgmt.response = s.mgmt.response ∧ (followerDone id
    o s).mgmt.mask = s.mgmt.mask ∧ (followerDone id o s).mgmt.counters = s.mgmt.counters ∧
    (followerDone id o s).mgmt.result = s.mgmt.result ∧ (followerDone id o s).pins = s.pins ∧
    (followerDone id o s).pending = s.pending := by
  unfold followerDone; (repeat' split) <;> simp

@[simp] theorem handleDone_frame (id : OpId) (o : DoneOutcome) (s : State) :
    (handleDone id o s).up.offered = s.up.offered ∧ (handleDone id o s).up.nextSeq = s.up.nextSeq
    ∧ (handleDone id o s).up.liveTags = s.up.liveTags ∧ (handleDone id o s).up.refusals =
    s.up.refusals ∧ (handleDone id o s).up.queue = s.up.queue ∧ (handleDone id o s).up.fenceList =
    s.up.fenceList ∧ (handleDone id o s).cls = s.cls ∧ (handleDone id o s).log.configured =
    s.log.configured ∧ (handleDone id o s).log.base = s.log.base ∧ (handleDone id o
    s).log.capacity = s.log.capacity ∧ (handleDone id o s).log.policy = s.log.policy ∧ (handleDone
    id o s).log.stallLimit = s.log.stallLimit ∧ (handleDone id o s).log.watermark =
    s.log.watermark ∧ (handleDone id o s).log.finished = s.log.finished ∧ (handleDone id o
    s).ckpt.lineEnable = s.ckpt.lineEnable ∧ (handleDone id o s).ckpt.autoTake = s.ckpt.autoTake ∧
    (handleDone id o s).ckpt.rolling = s.ckpt.rolling ∧ (handleDone id o s).ckpt.interval =
    s.ckpt.interval ∧ (handleDone id o s).ckpt.intervalCount = s.ckpt.intervalCount ∧ (handleDone
    id o s).ckpt.intervalMicros = s.ckpt.intervalMicros ∧ (handleDone id o s).ckpt.ckptLevel =
    s.ckpt.ckptLevel ∧ (handleDone id o s).restore.unrestored = s.restore.unrestored ∧ (handleDone
    id o s).restore.overflow = s.restore.overflow ∧ (handleDone id o s).down.limit = s.down.limit
    ∧ (handleDone id o s).down.wHost = s.down.wHost ∧ (handleDone id o s).down.wPreserve =
    s.down.wPreserve ∧ (handleDone id o s).down.wRestore = s.down.wRestore ∧ (handleDone id o
    s).down.timeout = s.down.timeout ∧ (handleDone id o s).casc.role = s.casc.role ∧ (handleDone
    id o s).casc.last = s.casc.last ∧ (handleDone id o s).casc.agreementLimit =
    s.casc.agreementLimit ∧ (handleDone id o s).casc.holdLimit = s.casc.holdLimit ∧ (handleDone id
    o s).casc.lastRefusal = s.casc.lastRefusal ∧ (handleDone id o s).casc.badCount =
    s.casc.badCount ∧ (handleDone id o s).mgmt.decoder = s.mgmt.decoder ∧ (handleDone id o
    s).mgmt.mcsLow = s.mgmt.mcsLow ∧ (handleDone id o s).mgmt.warmPending = s.mgmt.warmPending ∧
    (handleDone id o s).mgmt.response = s.mgmt.response ∧ (handleDone id o s).mgmt.mask =
    s.mgmt.mask ∧ (handleDone id o s).pins = s.pins ∧ (handleDone id o s).pending = s.pending := by
  unfold handleDone; dsimp only; (repeat' split) <;> simp

@[simp] theorem handleAsk_frame (src : AskSource) (s : State) :
    (handleAsk src s).up.offered = s.up.offered ∧ (handleAsk src s).up.nextSeq = s.up.nextSeq ∧
    (handleAsk src s).up.liveTags = s.up.liveTags ∧ (handleAsk src s).up.refusals = s.up.refusals
    ∧ (handleAsk src s).up.queue = s.up.queue ∧ (handleAsk src s).up.fenceList = s.up.fenceList ∧
    (handleAsk src s).cls = s.cls ∧ (handleAsk src s).log.configured = s.log.configured ∧
    (handleAsk src s).log.base = s.log.base ∧ (handleAsk src s).log.capacity = s.log.capacity ∧
    (handleAsk src s).log.policy = s.log.policy ∧ (handleAsk src s).log.stallLimit =
    s.log.stallLimit ∧ (handleAsk src s).log.watermark = s.log.watermark ∧ (handleAsk src
    s).log.finished = s.log.finished ∧ (handleAsk src s).ckpt.lineEnable = s.ckpt.lineEnable ∧
    (handleAsk src s).ckpt.autoTake = s.ckpt.autoTake ∧ (handleAsk src s).ckpt.rolling =
    s.ckpt.rolling ∧ (handleAsk src s).ckpt.interval = s.ckpt.interval ∧ (handleAsk src
    s).ckpt.intervalCount = s.ckpt.intervalCount ∧ (handleAsk src s).ckpt.intervalMicros =
    s.ckpt.intervalMicros ∧ (handleAsk src s).ckpt.ckptLevel = s.ckpt.ckptLevel ∧ (handleAsk src
    s).restore.unrestored = s.restore.unrestored ∧ (handleAsk src s).restore.overflow =
    s.restore.overflow ∧ (handleAsk src s).down.limit = s.down.limit ∧ (handleAsk src
    s).down.wHost = s.down.wHost ∧ (handleAsk src s).down.wPreserve = s.down.wPreserve ∧
    (handleAsk src s).down.wRestore = s.down.wRestore ∧ (handleAsk src s).down.timeout =
    s.down.timeout ∧ (handleAsk src s).casc.role = s.casc.role ∧ (handleAsk src s).casc.last =
    s.casc.last ∧ (handleAsk src s).casc.agreementLimit = s.casc.agreementLimit ∧ (handleAsk src
    s).casc.holdLimit = s.casc.holdLimit ∧ (handleAsk src s).casc.lastRefusal = s.casc.lastRefusal
    ∧ (handleAsk src s).casc.badCount = s.casc.badCount ∧ (handleAsk src s).mgmt.decoder =
    s.mgmt.decoder ∧ (handleAsk src s).mgmt.mcsLow = s.mgmt.mcsLow ∧ (handleAsk src
    s).mgmt.warmPending = s.mgmt.warmPending ∧ (handleAsk src s).mgmt.response = s.mgmt.response ∧
    (handleAsk src s).mgmt.mask = s.mgmt.mask ∧ (handleAsk src s).pins = s.pins ∧ (handleAsk src
    s).pending = s.pending := by
  unfold handleAsk; (repeat' split) <;> simp

@[simp] theorem setTriggers_frame (lineEnable : Bool) (interval : Nat) (autoTake rolling : Bool) (s : State) :
    (setTriggers lineEnable interval autoTake rolling s).up = s.up ∧ (setTriggers lineEnable
    interval autoTake rolling s).cls = s.cls ∧ (setTriggers lineEnable interval autoTake rolling
    s).entries = s.entries ∧ (setTriggers lineEnable interval autoTake rolling s).filter =
    s.filter ∧ (setTriggers lineEnable interval autoTake rolling s).log = s.log ∧ (setTriggers
    lineEnable interval autoTake rolling s).ckpt.stack = s.ckpt.stack ∧ (setTriggers lineEnable
    interval autoTake rolling s).ckpt.nextNumber = s.ckpt.nextNumber ∧ (setTriggers lineEnable
    interval autoTake rolling s).ckpt.generation = s.ckpt.generation ∧ (setTriggers lineEnable
    interval autoTake rolling s).ckpt.fence = s.ckpt.fence ∧ (setTriggers lineEnable interval
    autoTake rolling s).ckpt.ctrl = s.ckpt.ctrl ∧ (setTriggers lineEnable interval autoTake
    rolling s).ckpt.lineFlag = s.ckpt.lineFlag ∧ (setTriggers lineEnable interval autoTake rolling
    s).ckpt.cascadeFlag = s.ckpt.cascadeFlag ∧ (setTriggers lineEnable interval autoTake rolling
    s).ckpt.ckptLevel = s.ckpt.ckptLevel ∧ (setTriggers lineEnable interval autoTake rolling
    s).restore = s.restore ∧ (setTriggers lineEnable interval autoTake rolling s).down = s.down ∧
    (setTriggers lineEnable interval autoTake rolling s).casc = s.casc ∧ (setTriggers lineEnable
    interval autoTake rolling s).mgmt = s.mgmt ∧ (setTriggers lineEnable interval autoTake rolling
    s).pins = s.pins ∧ (setTriggers lineEnable interval autoTake rolling s).pending = s.pending := by
  simp [setTriggers]

@[simp] theorem acceptRollback_frame (k : CkptNumber) (s : State) :
    (acceptRollback k s).up = s.up ∧ (acceptRollback k s).cls = s.cls ∧ (acceptRollback k
    s).filter = s.filter ∧ (acceptRollback k s).log.configured = s.log.configured ∧
    (acceptRollback k s).log.base = s.log.base ∧ (acceptRollback k s).log.capacity =
    s.log.capacity ∧ (acceptRollback k s).log.policy = s.log.policy ∧ (acceptRollback k
    s).log.stallLimit = s.log.stallLimit ∧ (acceptRollback k s).log.watermark = s.log.watermark ∧
    (acceptRollback k s).log.tail = s.log.tail ∧ (acceptRollback k s).log.head = s.log.head ∧
    (acceptRollback k s).log.finished = s.log.finished ∧ (acceptRollback k s).ckpt.nextNumber =
    s.ckpt.nextNumber ∧ (acceptRollback k s).ckpt.generation = s.ckpt.generation ∧ (acceptRollback
    k s).ckpt.lineFlag = s.ckpt.lineFlag ∧ (acceptRollback k s).ckpt.timerFlag = s.ckpt.timerFlag
    ∧ (acceptRollback k s).ckpt.cascadeFlag = s.ckpt.cascadeFlag ∧ (acceptRollback k
    s).ckpt.lineEnable = s.ckpt.lineEnable ∧ (acceptRollback k s).ckpt.autoTake = s.ckpt.autoTake
    ∧ (acceptRollback k s).ckpt.rolling = s.ckpt.rolling ∧ (acceptRollback k s).ckpt.interval =
    s.ckpt.interval ∧ (acceptRollback k s).ckpt.intervalCount = s.ckpt.intervalCount ∧
    (acceptRollback k s).ckpt.intervalMicros = s.ckpt.intervalMicros ∧ (acceptRollback k
    s).ckpt.ckptLevel = s.ckpt.ckptLevel ∧ (acceptRollback k s).restore.walk = s.restore.walk ∧
    (acceptRollback k s).down.restoreReady = s.down.restoreReady ∧ (acceptRollback k s).down.tags
    = s.down.tags ∧ (acceptRollback k s).down.channel = s.down.channel ∧ (acceptRollback k
    s).down.turn = s.down.turn ∧ (acceptRollback k s).down.used = s.down.used ∧ (acceptRollback k
    s).down.limit = s.down.limit ∧ (acceptRollback k s).down.wHost = s.down.wHost ∧
    (acceptRollback k s).down.wPreserve = s.down.wPreserve ∧ (acceptRollback k s).down.wRestore =
    s.down.wRestore ∧ (acceptRollback k s).down.timeout = s.down.timeout ∧ (acceptRollback k
    s).casc.role = s.casc.role ∧ (acceptRollback k s).casc.last = s.casc.last ∧ (acceptRollback k
    s).casc.agreementLimit = s.casc.agreementLimit ∧ (acceptRollback k s).casc.holdLimit =
    s.casc.holdLimit ∧ (acceptRollback k s).casc.abandoned = s.casc.abandoned ∧ (acceptRollback k
    s).casc.lastRefusal = s.casc.lastRefusal ∧ (acceptRollback k s).casc.badCount =
    s.casc.badCount ∧ (acceptRollback k s).mgmt.decoder = s.mgmt.decoder ∧ (acceptRollback k
    s).mgmt.mcsLow = s.mgmt.mcsLow ∧ (acceptRollback k s).mgmt.warmPending = s.mgmt.warmPending ∧
    (acceptRollback k s).mgmt.response = s.mgmt.response ∧ (acceptRollback k s).mgmt.mask =
    s.mgmt.mask ∧ (acceptRollback k s).mgmt.result = s.mgmt.result ∧ (acceptRollback k s).pins =
    s.pins ∧ (acceptRollback k s).pending = s.pending := by
  unfold acceptRollback; simp

end Sys2Proof.Machine
end

