-- ==== Sys2Proof/Laws/Ops.lean ====
section
/-! SUPPORT. What each shared operation does in the cases the statements speak of, so that no proof
unfolds it: answers, follow-ups, entries, sends, searches. -/

namespace Sys2Proof.Machine

/-! ## Events and answers -/

/-- An event outside a reset is taken. -/
theorem event_taken {s : State} {f : State → State} (h : inReset s = false) : event s f = .next (f s) := by
  simp [event, h]

/-- A frame that the port listens for is answered, where its command leaves warmPending alone. -/
theorem onFrame_listening {s : State} {d : Decoder} {run : State → Answer} (h : Listening s d)
    (hw : (run s).state.mgmt.warmPending = s.mgmt.warmPending) :
    onFrame s run = .next (answered d (run s).status (run s).payload (run s).state) := by
  obtain ⟨h1, ⟨h2, rfl⟩ | ⟨h2, h3, rfl⟩⟩ := h
  · simp [onFrame, h1, h2, respond, answered, State.onMgmt]
  · simp [onFrame, h1, h2, respond, answered, State.onMgmt, startPendingReset, hw, h3]

/-! ## Follow-ups that do nothing -/

theorem grantIfDue_busy {s : State} (h : s.down.channel.isSome = true) : grantIfDue s = s := by
  unfold grantIfDue; split <;> simp_all

theorem offerIfDue_busy {s : State} (h : s.up.channel.isSome = true) : offerIfDue s = s := by
  simp only [offerIfDue, Option.isNone_iff_eq_none]
  rw [if_neg]; intro h2; simp [h2] at h

theorem portFollow_busy {s : State} (h : ChannelsBusy s) : portFollow s = s := by
  simp [portFollow, grantIfDue_busy h.1, offerIfDue_busy h.2]

theorem triggerCheck_idle {s : State} (h : longOp s = true ∨ dueSource s = none) : triggerCheck s = s := by
  unfold triggerCheck
  rcases h with h | h <;> simp [h]

theorem dueSource_noFlags {s : State} (h : NoFlags s) : dueSource s = none := by
  simp [dueSource, servable, h.1, h.2.1, h.2.2]

theorem dueSource_follower {s : State} (h : s.casc.role = .follower) : dueSource s = none := by
  simp [dueSource, servable, h]

theorem cascadeFollow_none {s : State} (h : s.casc.agreement = none) : cascadeFollow s = s := by
  have a : leaderGo s = s := by simp [leaderGo, h]
  have b : readyOk s = s := by simp [readyOk, h]
  have c : agreementEnd s = s := by simp [agreementEnd, h]
  have d : doneSend s = s := by simp [doneSend, h]
  simp [cascadeFollow, a, b, c, d]

/-- An agreement that has neither settled nor ended at this unit sends nothing. -/
theorem cascadeFollow_unsettled {s : State} {a : Agreement} (h : s.casc.agreement = some a)
    (h1 : a.settled = false) (h2 : a.own = none) : cascadeFollow s = s := by
  have x1 : leaderGo s = s := by simp [leaderGo, h, h1]
  have x2 : readyOk s = s := by simp [readyOk, h, h1]
  have x3 : agreementEnd s = s := by simp [agreementEnd, h, h2]
  have x4 : doneSend s = s := by simp [doneSend, h, h2]
  simp [cascadeFollow, x1, x2, x3, x4]

theorem settle_elsewhere {s : State} (h : ∀ g src, s.ckpt.ctrl ≠ .settling g src) : settle s = s := by
  have a : settleTake s = s := by unfold settleTake; split <;> simp_all
  have b : settleRollback s = s := by unfold settleRollback; split <;> simp_all
  simp [settle, a, b]

theorem settle_unsettled {s : State} (h : settled s = false) : settle s = s := by
  have h2 : rollbackSettled s = false := by
    simp only [settled, rollbackSettled, List.all_eq_false] at *
    obtain ⟨x, a, b⟩ := h
    refine ⟨x, a, ?_⟩
    cases hc : x.cls <;> simp_all
  have a : settleTake s = s := by unfold settleTake; split <;> simp_all
  have b : settleRollback s = s := by unfold settleRollback; split <;> simp_all
  simp [settle, a, b]

/-- Nothing follows an event when no settle and no cascade send is due, no trigger check is, and both
channels are occupied. -/
theorem follow_quiet {b t : State} (hc : ChannelsBusy b) (h1 : settle t = t) (h2 : cascadeFollow t = t)
    (h3 : t.down.channel = b.down.channel) (h4 : t.up = b.up)
    (h5 : longOp b = false ∨ longOp t = true ∨ dueSource t = none) :
    portFollow (controlFollow b t) = t := by
  rw [controlFollow]; simp only [h1, h2]
  have : (if (longOp b && !longOp t) = true then triggerCheck t else t) = t := by
    rcases h5 with h5 | h5
    · simp [h5]
    · rw [triggerCheck_idle h5]; simp
  rw [this, portFollow_busy]
  exact ⟨by rw [h3]; exact hc.1, by rw [h4]; exact hc.2⟩

/-- Nothing follows an event at rest that changes neither the controller nor the cascade part. -/
theorem follow_atRest {b t : State} (ha : AtRest b) (hc : ChannelsBusy b) (h1 : t.ckpt = b.ckpt)
    (h2 : t.casc = b.casc) (h3 : t.down.channel = b.down.channel) (h4 : t.up = b.up) :
    portFollow (controlFollow b t) = t := by
  refine follow_quiet hc (settle_elsewhere ?_) (cascadeFollow_none ?_) h3 h4 (Or.inl ?_)
  · simp [h1, ha.1]
  · rw [h2]; exact ha.2
  · simp [longOp, ha.1, ha.2]

/-! ## Searches -/

theorem finRange_split (n : Fin 32) :
    List.finRange 32 = (List.finRange 32).take n.val ++ n :: (List.finRange 32).drop (n.val + 1) := by
  have : (List.finRange 32)[n.val]'(by simp) = n := by simp
  conv =>
    lhs
    rw [← List.take_append_drop n.val (List.finRange 32), List.drop_eq_getElem_cons (by simp), this]

theorem mem_take_finRange {a n : Fin 32} (h : a ∈ (List.finRange 32).take n.val) : a < n := by
  rw [List.mem_take_iff_getElem] at h
  obtain ⟨i, hi, rfl⟩ := h
  simp at hi ⊢; exact Fin.lt_def.2 (by simpa using hi)

theorem freeEntry_lowest {n : Fin 32} {s : State} (h : LowestFreeEntry n s) : freeEntry s = some n := by
  unfold freeEntry
  rw [List.find?_eq_some_iff_append]
  refine ⟨by simpa using h.1, _, _, finRange_split n, fun a ha => ?_⟩
  obtain ⟨e, he, rfl⟩ := h.2 a (mem_take_finRange ha)
  simp; exact ⟨e, he, rfl⟩

theorem freeTag_lowest {t : Fin 32} {d : Downstream} (h : LowestFreeTag t d) : freeTag d = some t := by
  unfold freeTag
  rw [List.find?_eq_some_iff_append]
  refine ⟨by simpa using ⟨h.1, h.2.1⟩, _, _, finRange_split t, fun a ha => ?_⟩
  obtain ⟨e, he, rfl⟩ := h.2.2 a (mem_take_finRange ha)
  simp; right; exact ⟨e, he, rfl⟩

theorem inWindow_iff (l : Nat) (c : Classifier) :
    inWindow l c = true ↔ ∃ w ∈ c.windows.toList, w.enable = true ∧ w.base ≤ l ∧ l < w.base + w.count := by
  simp only [inWindow, List.any_eq_true, Bool.and_eq_true, decide_eq_true_eq, and_assoc]

theorem isHeld_iff (s : State) : isHeld s = true ↔ ∃ r, s.ckpt.ctrl = .held r := by
  unfold isHeld; split <;> simp_all

/-! ## Entries -/

theorem entryAt_num {n : Fin 32} {s : State} {e : Entry} (h : entryAt n s = some e) : e.num = n := by
  have := List.find?_some h; simpa using this

/-- The entry of a number after a change of that entry. -/
theorem entryAt_changed {n : Fin 32} {s u : State} {e : Entry} {f : Entry → Entry}
    (he : entryAt n s = some e)
    (hu : u.entries = s.entries.map fun x => if x.num = n then f x else x) (hf : ∀ x, (f x).num = x.num) :
    entryAt n u = some (f e) := by
  simp only [entryAt, hu]
  unfold entryAt at he
  revert he
  generalize s.entries = es
  intro he
  induction es with
  | nil => simp at he
  | cons a as ih =>
    simp only [List.map_cons, List.find?_cons] at he ⊢
    by_cases ha : a.num = n
    · simp [ha] at he; subst he; simp [ha, hf]
    · have hb : (a.num == n) = false := by simpa using ha
      simp only [hb] at he; simp only [ha, if_false, hb]; exact ih he

theorem modEntry_modEntry {n : Fin 32} (u : State) (f g : Entry → Entry) (hf : ∀ x, (f x).num = x.num) :
    modEntry n g (modEntry n f u)
      = { u with entries := u.entries.map fun x => if x.num = n then g (f x) else x } := by
  simp only [modEntry, State.onEntries, List.map_map]
  congr 1
  apply List.map_congr_left; intro x hx; by_cases hxn : x.num = n <;> simp [hxn, hf]

theorem modCtx_modEntry {n : Fin 32} (u : State) (f : Entry → Entry) (g : RecordCtx → RecordCtx)
    (hf : ∀ x, (f x).num = x.num) :
    modCtx n g (modEntry n f u)
      = { u with entries := u.entries.map fun x =>
            if x.num = n then { f x with ctx := (f x).ctx.map g } else x } := by
  rw [modCtx, modEntry_modEntry u f _ hf]

/-- The entry just appended under a FREE number. -/
theorem entryAt_appended {n : Fin 32} {s : State} (h : ∀ e ∈ s.entries, e.num ≠ n) (x : Entry)
    (hx : x.num = n) (t : State) (ht : t.entries = s.entries ++ [x]) : entryAt n t = some x := by
  simp only [entryAt, ht, List.find?_append]
  have : List.find? (fun e => e.num == n) s.entries = none := by simpa using h
  simp [this, hx]

/-- A change of the entry just appended under a FREE number. -/
theorem map_appended {n : Fin 32} {s : State} (h : ∀ e ∈ s.entries, e.num ≠ n) (x : Entry)
    (hx : x.num = n) (f : Entry → Entry) :
    (s.entries ++ [x]).map (fun e => if e.num = n then f e else e) = s.entries ++ [f x] := by
  simp only [List.map_append, List.map_cons, List.map_nil, hx, if_true]
  congr 1
  conv => rhs; rw [← List.map_id s.entries]
  apply List.map_congr_left; intro e he; simp [h e he]

theorem runChain_stop {l k : Nat} {s : State} (h : nextEligible l s = none) : runChain l k s = s := by
  cases k <;> simp [runChain, h]

theorem runChain_one {l k : Nat} {s : State} {e : Entry} (h : nextEligible l s = some e)
    (h2 : nextEligible l (eligible e s) = none) : runChain l (k + 1) s = eligible e s := by
  simp [runChain, h, runChain_stop h2]

/-- A chain with no BLOCKED entry releases nothing. -/
theorem releaseChain_noBlocked {l : Nat} {u : State}
    (h : ∀ x ∈ u.entries, x.line = l → x.state ≠ .blocked) : releaseChain l u = u := by
  rw [releaseChain, runChain_stop]
  simp only [nextEligible]; split
  · rename_i x hx
    have := List.mem_of_find?_eq_some hx
    simp [chain] at this
    rw [if_neg]; exact h _ this.1 this.2
  · rfl

/-- The entry that ends a chain of DONE entries is the one eligible next, if BLOCKED. -/
theorem nextEligible_last {s t : State} {l : Nat} {x : Entry}
    (hd : ∀ e ∈ s.entries, e.line = l → e.state = .done) (hx : x.line = l)
    (ht : t.entries = s.entries ++ [x]) :
    nextEligible l t = if x.state = .blocked then some x else none := by
  simp only [nextEligible, chain, ht, List.filter_append, List.find?_append]
  have : List.find? (fun e => e.state != .done) (s.entries.filter fun e => e.line == l) = none := by
    simpa using hd
  rw [this]; simp [hx]
  cases hxs : x.state <;> simp_all

/-- What ADMISSION offers, as a statement says it. -/
theorem offered_of_offers {s : State} {r : Accepted} {u : Upstream} (h : OffersToTracker s r u) :
    ∃ b, offeredToTracker s = some (r, b)
      ∧ (if b then { s.up with fenceList := s.up.fenceList.drop 1 }
          else { s.up with queue := s.up.queue.drop 1 }) = u := by
  rcases h with ⟨a1, a2, a3, a4, a5, a6⟩ | ⟨a1, a2, a3⟩ | ⟨a1, a2, a3, a4⟩
  · refine ⟨false, ?_, ?_⟩
    · simp [offeredToTracker, a1, a5, a2, a3]; simpa using a4
    · simp [a5]; exact a6.symm
  · refine ⟨true, ?_, ?_⟩
    · simp [offeredToTracker, a1, a2]
    · simp [a2]; exact a3.symm
  · refine ⟨false, ?_, ?_⟩
    · simp [offeredToTracker, a1, a2, a3]
    · simp [a3]; exact a4.symm

/-! ## Sends and pushes -/

theorem produce_up {m : Message} {s : State} (h : s.casc.upList.length < 4) :
    produce m .up s = { s with casc := { s.casc with upList := s.casc.upList ++ [m] } } := by
  simp [produce, sendList, h, setSendList, State.onCasc]

theorem produce_down {m : Message} {s : State} (h : s.casc.downList.length < 4) :
    produce m .down s = { s with casc := { s.casc with downList := s.casc.downList ++ [m] } } := by
  simp [produce, sendList, h, setSendList, State.onCasc]

theorem forwardDown_room {m : Message} {s : State} (h : s.casc.downList.length < 4) :
    forwardDown m s = { s with casc := { s.casc with
      downList := if s.casc.last then s.casc.downList else s.casc.downList ++ [m] } } := by
  unfold forwardDown
  by_cases h1 : s.casc.last = true
  · rw [if_pos h1]; simp only [h1, if_true]; rw [← h1]
  · rw [if_neg h1, produce_down h]; simp only [h1]; rfl

/-- A push, field by field (R11, R4, R5, R47). -/
theorem pushCkpt_fields (n : CkptNumber) (src : Source) (s : State) : pushCkpt n src s = { s with
    ckpt := { s.ckpt with
      stack := s.ckpt.stack ++ [⟨n, s.log.head, .live, 0, src⟩]
      nextNumber := if n = 65535 then 1 else n + 1
      generation := s.ckpt.generation + 1, fence := false, ctrl := .idle }
    filter := if s.ckpt.generation = 65535 then [] else s.filter } := by
  have : s.ckpt.generation + 1 = 0 ↔ s.ckpt.generation = 65535#16 := by
    constructor <;> intro h <;> bv_omega
  simp only [pushCkpt, stepGeneration, standDown, setCtrl, lowerFence, State.onCkpt, State.onFilter, this]
  by_cases h : s.ckpt.generation = 65535#16 <;> simp [h, succNumber]

/-- With nobody waiting, issuing the wait list only stops the clock. -/
theorem issueWaiting_nil {s : State} (h : s.log.waitList = []) :
    issueWaiting s = { s with log := { s.log with waitList := [], stallClock := 0 } } := by
  simp [issueWaiting, h, State.onLog]

/-- The wait list served while a LIVE checkpoint is current (R38): its entries reserve in list order for as
long as the log has room, and the rest stay on the list. -/
theorem reserveWaiting_serves {c : CkptRecord} : ∀ (waiting : List (Fin 32)) (s : State),
    s.log.waitList = waiting → waiting.Nodup → (∀ m ∈ waiting, ∃ e, entryAt m s = some e) →
    currentCkpt s = some c → s.log.capacity ≤ 2 ^ 26 → occupancy s.log ≤ s.log.capacity →
    reserveWaiting waiting.length s =
      let served := waiting.take (s.log.capacity - occupancy s.log)
      { s with
        log := { s.log with
          allocated := s.log.allocated + BitVec.ofNat 32 served.length
          waitList := waiting.drop (s.log.capacity - occupancy s.log) }
        entries := s.entries.map fun x =>
          if x.num ∈ served then
            { x with
              state := .capturing
              ctx := some (freshCtx (s.log.allocated + BitVec.ofNat 32 (served.idxOf x.num)) c.number) }
          else x
        down := { s.down with preserveReady := s.down.preserveReady ++ served.filterMap (fun m =>
          (entryAt m s).map fun e => ⟨.capture m, .read, e.line⟩) }
        mgmt := { s.mgmt with
          latches :=
            if occupancy s.log < s.log.watermark ∧ s.log.watermark ≤ occupancy s.log + served.length
            then s.mgmt.latches ||| 0x008 else s.mgmt.latches } } := by
  intro waiting
  induction waiting with
  | nil =>
    intro s hw _ _ _ _ _
    have : ¬ (occupancy s.log < s.log.watermark ∧ s.log.watermark ≤ occupancy s.log) := by omega
    simp [reserveWaiting, this]
    rw [← hw]
  | cons n rest ih =>
    intro s hw hnd hen hc hcap hocc
    by_cases hf : logFull s = true
    · have he : s.log.capacity - occupancy s.log = 0 := by simp [logFull] at hf; omega
      have : ¬ (occupancy s.log < s.log.watermark ∧ s.log.watermark ≤ occupancy s.log) := by omega
      simp only [List.length_cons, reserveWaiting, hw, hf, if_true]
      simp [he, this]
      rw [← hw]
    · have hlt : occupancy s.log < s.log.capacity := by
        simp [logFull] at hf; omega
      obtain ⟨e, hne⟩ := hen n (by simp)
      obtain ⟨s1, hs1⟩ : ∃ s1 : State, s1 = { s with
          log := { s.log with allocated := s.log.allocated + 1, waitList := rest }
          entries := s.entries.map fun x =>
            if x.num = n then
              { x with state := .capturing, ctx := some (freshCtx s.log.allocated c.number) } else x
          down := { s.down with preserveReady := s.down.preserveReady ++ [⟨.capture n, .read, e.line⟩] }
          mgmt := { s.mgmt with
            latches :=
              if occupancy s.log + 1 = s.log.watermark
              then s.mgmt.latches ||| 0x008 else s.mgmt.latches } } := ⟨_, rfl⟩
      have hoc : occupancy { s.log with allocated := s.log.allocated + 1, waitList := rest }
          = occupancy s.log + 1 := by
        have : (s.log.allocated - s.log.tail).toNat < 2 ^ 26 := by
          have := hlt; simp only [occupancy] at this; omega
        simp only [occupancy]; bv_omega
      have hr : reserve n (s.onLog fun l => { l with waitList := rest }) = s1 := by
        have h1 : entryAt n (s.onLog fun l => { l with waitList := rest }) = some e := hne
        have h2 : currentCkpt (s.onLog fun l => { l with waitList := rest }) = some c := hc
        simp only [reserve, h1, h2, latchIf]
        rw [hs1]
        by_cases h4 : occupancy s.log + 1 = s.log.watermark
        · rw [if_pos (by rw [← hoc] at h4; exact beq_iff_eq.2 h4), if_pos h4]; rfl
        · rw [if_neg (by rw [← hoc] at h4; exact fun h => h4 (beq_iff_eq.1 h)), if_neg h4]; rfl
      have hnr : n ∉ rest := (List.nodup_cons.1 hnd).1
      have hent : ∀ m, m ∈ rest → ∀ u : State, u.entries = (s.entries.map fun x =>
            if x.num = n then
              { x with state := .capturing, ctx := some (freshCtx s.log.allocated c.number) } else x) →
          entryAt m u = entryAt m s := by
        intro m hm u hu
        have hmn : m ≠ n := fun h => hnr (h ▸ hm)
        simp only [entryAt, hu]
        induction s.entries with
        | nil => rfl
        | cons a l ih2 =>
          simp only [List.map_cons, List.find?_cons]
          by_cases han : a.num = n
          · have : (a.num == m) = false := by simp [han]; exact Ne.symm hmn
            simp only [han, if_true]
            have h2 : (n == m) = false := by simp; exact Ne.symm hmn
            simp only [h2]; exact ih2
          · simp only [han, if_false]
            split
            · rfl
            · exact ih2
      rw [List.length_cons, reserveWaiting]
      simp only [hw, hf]
      rw [hr]
      simp only [Bool.false_eq_true, if_false]
      have hoc1 : occupancy s1.log = occupancy s.log + 1 := by rw [hs1]; exact hoc
      have hcap1 : s1.log.capacity = s.log.capacity := by rw [hs1]
      rw [ih s1 (by rw [hs1]) (List.nodup_cons.1 hnd).2 ?_ (by rw [hs1]; exact hc)
        (by rw [hcap1]; exact hcap) (by rw [hoc1, hcap1]; omega)]
      · obtain ⟨k, hk⟩ : ∃ k, s.log.capacity - occupancy s.log = k + 1 :=
          ⟨s.log.capacity - occupancy s.log - 1, by omega⟩
        have hk2 : s.log.capacity - (occupancy s.log + 1) = k := by omega
        simp only [hoc1, hcap1, hk, hk2, List.take_succ_cons, List.drop_succ_cons, List.length_cons]
        have hfm : ∀ l : List (Fin 32), (∀ m ∈ l, m ∈ rest) →
            l.filterMap (fun m => (entryAt m s1).map fun e => (⟨.capture m, .read, e.line⟩ : DownReq))
              = l.filterMap (fun m => (entryAt m s).map fun e => ⟨.capture m, .read, e.line⟩) := by
          intro l hl
          apply List.filterMap_congr; intro m hm
          rw [hent m (hl m hm) s1 (by rw [hs1])]
        rw [hfm _ (fun m hm => List.mem_of_mem_take hm)]
        have hnum : ∀ (x : BitVec 32) (k : Nat),
            x + 1#32 + BitVec.ofNat 32 k = x + BitVec.ofNat 32 (k + 1) := by
          intro x k; rw [BitVec.add_assoc]; congr 1; apply BitVec.eq_of_toNat_eq; simp [Nat.add_comm]
        have he : (s1.entries.map fun x =>
          if x.num ∈ rest.take k then
            { x with
              state := .capturing
              ctx := some (freshCtx (s1.log.allocated + BitVec.ofNat 32 ((rest.take k).idxOf x.num)) c.number) }
          else x) = s.entries.map fun x =>
          if x.num ∈ n :: rest.take k then
            { x with
              state := .capturing
              ctx := some
                (freshCtx (s.log.allocated + BitVec.ofNat 32 ((n :: rest.take k).idxOf x.num)) c.number) }
          else x := by
          rw [hs1]; simp only [List.map_map]
          apply List.map_congr_left; intro x hx
          by_cases hxn : x.num = n
          · have : n ∉ rest.take k := fun h => hnr (List.mem_of_mem_take h)
            simp [hxn, this]
          · by_cases hxm : x.num ∈ rest.take k
            · simp [hxn, hxm, hnum, Ne.symm hxn]
            · simp [hxn, hxm]
        rw [he]
        have hl : (if occupancy s.log + 1 < s1.log.watermark
              ∧ s1.log.watermark ≤ occupancy s.log + 1 + (rest.take k).length
            then s1.mgmt.latches ||| 0x008 else s1.mgmt.latches)
          = if occupancy s.log < s.log.watermark
              ∧ s.log.watermark ≤ occupancy s.log + ((rest.take k).length + 1)
            then s.mgmt.latches ||| 0x008 else s.mgmt.latches := by
          rw [hs1]; simp only []
          by_cases a : occupancy s.log + 1 = s.log.watermark
          · rw [if_neg (by omega), if_pos a, if_pos (by omega)]
          · rw [if_neg a]
            by_cases b : occupancy s.log + 1 < s.log.watermark
              ∧ s.log.watermark ≤ occupancy s.log + 1 + (rest.take k).length
            · rw [if_pos b, if_pos (by omega)]
            · rw [if_neg b, if_neg (by omega)]
        rw [hl]
        simp [hs1, hne, hnum]
      · intro m hm
        obtain ⟨e', he'⟩ := hen m (by simp [hm])
        exact ⟨e', by rw [hent m hm s1 (by rw [hs1])]; exact he'⟩

/-- An entry issues: ISSUING, and its HOST request joins the ready list (R99). -/
theorem issue_entry {n : Fin 32} {s : State} {e : Entry} (h : entryAt n s = some e) :
    issue n s = { s with
      entries := s.entries.map fun x => if x.num = n then { x with state := .issuing } else x
      down := { s.down with hostReady := s.down.hostReady ++ [⟨.host n, e.op, e.line⟩] } } := by
  simp only [issue, h]; rfl

/-! ## Settles and sends that are not due -/

/-- While no settle is due, none follows an event that leaves controller, tracker and windows alone. -/
theorem settle_notDue {s u : State} (h : NoSettleDue s) (h1 : u.ckpt.ctrl = s.ckpt.ctrl)
    (h2 : u.entries = s.entries) (h3 : u.cls = s.cls) : settle u = u := by
  have s1 : settled u = settled s := by simp [settled, h2]
  have s2 : rollbackSettled u = rollbackSettled s := by simp [rollbackSettled, h2, h3]
  have a : settleTake u = u := by
    unfold settleTake; split
    · rename_i src hc; rw [if_neg]; rw [s1, h.1 src (by rw [← h1]; exact hc)]; simp
    all_goals rfl
  have b : settleRollback u = u := by
    unfold settleRollback; split
    · rename_i k src hc; rw [if_neg]; rw [s2, h.2 k src (by rw [← h1]; exact hc)]; simp
    all_goals rfl
  rw [settle, a, b]

theorem readyOk_leader {s : State} (h : s.casc.role = .leader) : readyOk s = s := by
  unfold readyOk; split <;> simp [h]

theorem doneSend_leader {s : State} (h : s.casc.role = .leader) : doneSend s = s := by
  unfold doneSend; split
  · rfl
  · split <;> simp [h]

theorem leaderGo_follower {s : State} (h : s.casc.role ≠ .leader) : leaderGo s = s := by
  unfold leaderGo; split <;> simp [h]

theorem agreementEnd_beforeGo {s : State} {a : Agreement} (h : s.casc.agreement = some a)
    (hg : a.go = false) : agreementEnd s = s := by
  unfold agreementEnd; simp only [h]; split <;> simp [hg]

theorem doneSend_beforeGo {s : State} {a : Agreement} (h : s.casc.agreement = some a)
    (hg : a.go = false) : doneSend s = s := by
  unfold doneSend; simp only [h]; split <;> simp [hg]

/-- With no send due, none is made. -/
theorem cascadeFollow_notDue {s : State} (h : NoSendDue s) : cascadeFollow s = s := by
  cases ha : s.casc.agreement with
  | none => exact cascadeFollow_none ha
  | some a =>
    obtain ⟨h1, h2, h3⟩ := h a ha
    have x1 : leaderGo s = s := by
      unfold leaderGo; simp only [ha]; rw [if_neg]
      rintro ⟨b, c, d, e⟩
      rcases h1 b e with f | f <;> simp_all
    have x2 : readyOk s = s := by
      unfold readyOk; simp only [ha]; rw [if_neg]
      rintro ⟨b, c, d, e, f⟩
      rcases h2 b f with g | g | g
      · simp_all
      · exact g e
      · rcases d with d | d
        · exact g.1 d
        · exact g.2 d
    have x3 : agreementEnd s = s := by
      unfold agreementEnd; simp only [ha]; split
      · rename_i o b ho hb
        rw [if_neg]; rintro ⟨_, c⟩
        rcases h3 c with d | d <;> simp_all
      all_goals rfl
    have x4 : doneSend s = s := by
      unfold doneSend; simp only [ha]; split
      · rfl
      · rename_i o ho
        rw [if_neg]; rintro ⟨b, c, d⟩
        rcases h3 c with e | ⟨e, f⟩
        · simp [ho] at e
        · rcases d with d | d
          · simp [f b] at d
          · simp [e] at d
    simp [cascadeFollow, x1, x2, x3, x4]

/-- A send not due before an event is not due after one that leaves the cascade part alone. -/
theorem noSendDue_same {s t : State} (h : NoSendDue s) (hc : t.casc = s.casc) : NoSendDue t := by
  intro a ha; rw [hc] at ha ⊢; exact h a ha

/-- With no settle due in a state, none is made. -/
theorem settle_none {s : State} (h : NoSettleDue s) : settle s = s := settle_notDue h rfl rfl rfl

/-- Nothing follows an event after which no settle and no send is due, controller and cascade part left
alone. -/
theorem follow_notDue {s t : State} (hb : ChannelsBusy s) (h : NoSendDue s) (h1 : t.casc = s.casc)
    (h2 : t.ckpt.ctrl = s.ckpt.ctrl) (h3 : t.down.channel = s.down.channel) (h4 : t.up = s.up)
    (h5 : settle t = t) : portFollow (controlFollow s t) = t := by
  refine follow_quiet hb h5 (cascadeFollow_notDue (noSendDue_same h h1)) h3 h4 ?_
  have : longOp t = longOp s := by simp [longOp, h1, h2]
  cases hl : longOp s <;> simp [this, hl]

/-- In SETTLING the end of an event's step is the settle's own step on the state the event leaves (R7,
R10, R72). -/
theorem follow_settling {s t : State} (h0 : inReset t = false) (h1 : t.casc = s.casc)
    (h2 : t.ckpt.ctrl = s.ckpt.ctrl) :
    (∀ src, s.ckpt.ctrl = .settling .take src →
      .next (portFollow (controlFollow s t)) = exec .takeSettled t)
    ∧ (∀ k src, s.ckpt.ctrl = .settling (.rollback k) src →
      .next (portFollow (controlFollow s t)) = exec .rollbackSettled t) := by
  have hl : longOp t = longOp s := by simp [longOp, h1, h2]
  refine ⟨?_, ?_⟩
  · intro src hc
    have hs : settle t = settleTake t := by
      unfold settle settleRollback
      have hk : t.ckpt.ctrl = .settling .take src := h2.trans hc
      unfold settleTake; simp only [hk]
      split_ifs <;> simp [soloPush, enterAgreeing, latch, writeResult, pushCkpt, standDown, setCtrl,
        lowerFence, modAgreement, State.onCkpt, State.onMgmt, State.onCasc, hk]
    simp only [exec, execTakeSettled, event_taken h0, afterSettle, controlFollow, hs, hl]
  · intro k src hc
    have hs : settle t = settleRollback t := by
      have : settleTake t = t := by unfold settleTake; simp [h2, hc]
      rw [settle, this]
    simp only [exec, execRollbackSettled, event_taken h0, afterSettle, controlFollow, hs, hl]

/-- No grant and no offer follows while the ports are still. -/
theorem portFollow_still {s : State} (h : PortsStill s) : portFollow s = s := by
  rcases h.2 with h2 | ⟨h2, h3⟩
  · exact portFollow_busy ⟨h.1, h2⟩
  · rw [portFollow, grantIfDue_busy h.1]
    have : readySeqs s = [] := by
      simp only [readySeqs, h2, List.map_nil, List.append_nil, List.map_eq_nil_iff, List.filter_eq_nil_iff]
      intro e he; simpa using h3 e he
    unfold offerIfDue; split
    · rename_i h4
      have h5 : s.up.channel = none := by simpa using h4
      show ({ s with up := { s.up with channel := (readySeqs s).min? } } : State) = s
      rw [this, show ([] : List Nat).min? = s.up.channel from h5.symm]
    · rfl

/-- Nothing follows an event that leaves a PROTECTED entry unfinished, controller and cascade part alone,
while no send is due. -/
theorem follow_unsettled {s t : State} (hb : ChannelsBusy s) (ha : NoSendDue s)
    (h1 : t.casc = s.casc) (h2 : t.ckpt.ctrl = s.ckpt.ctrl) (h3 : t.down.channel = s.down.channel)
    (h4 : t.up = s.up) (h5 : settled t = false) : portFollow (controlFollow s t) = t :=
  follow_notDue hb ha h1 h2 h3 h4 (settle_unsettled h5)

/-! ## Breaks, walks -/

/-- A break with a LIVE record and nobody waiting (R16, R39). -/
theorem breakAll_live {s : State} {r : CkptRecord} (hr : r ∈ s.ckpt.stack) (hl : r.state = .live)
    (hw : s.log.waitList = []) : breakAll s = { s with
      ckpt := { s.ckpt with stack := s.ckpt.stack.map fun r => { r with state := .broken } }
      log := { s.log with waitList := [], stallClock := 0 }
      mgmt := { s.mgmt with latches := s.mgmt.latches ||| 0x004 } } := by
  unfold breakAll
  rw [if_pos (by simp; exact ⟨r, hr, hl⟩), issueWaiting_nil (by exact hw)]
  rfl

/-- A break with no LIVE record changes nothing (R16). -/
theorem breakAll_none {s : State} (h : ∀ r ∈ s.ckpt.stack, r.state = .broken) : breakAll s = s := by
  unfold breakAll
  rw [if_neg]; simp; intro r hr; simp [h r hr]

/-- Truncation to a checkpoint with the return to IDLE, field by field (R24, R43, R83, R47). -/
theorem standDown_truncateTo {s : State} {k : CkptNumber} {r : CkptRecord} (h : findCkpt k s = some r) :
    standDown (truncateTo k s) = { s with
      ckpt := { s.ckpt with
        stack := s.ckpt.stack.takeWhile (fun x => x.number != k) ++ [{ r with records := 0 }]
        generation := s.ckpt.generation + 1, fence := false, ctrl := .idle }
      filter := if s.ckpt.generation = 65535 then [] else s.filter
      log := { s.log with head := r.mark, allocated := r.mark } } := by
  have g : s.ckpt.generation + 1 = 0 ↔ s.ckpt.generation = 65535#16 := by
    constructor <;> intro h <;> bv_omega
  simp only [truncateTo, h, stepGeneration, State.onCkpt, State.onLog, State.onFilter, g, standDown,
    setCtrl, lowerFence]
  by_cases hg : s.ckpt.generation = 65535#16 <;> simp [hg]

/-- A walk whose range holds no record ends in the step it begins: the truncation to its target, and the
report of a walk that applied nothing (R75, R82, R83). -/
theorem startWalk_empty {s : State} {k : CkptNumber} {r : CkptRecord} (h : findCkpt k s = some r)
    (hm : s.log.head = r.mark) (hu : s.restore.unrestored = []) (ho : s.restore.overflow = 0) :
    ∃ w : Walk, w.target = k ∧ w.applied = 0 ∧ startWalk k s = reportWalk w .done { s with
      ckpt := { s.ckpt with
        stack := s.ckpt.stack.takeWhile (fun x => x.number != k) ++ [{ r with records := 0 }]
        generation := s.ckpt.generation + 1, fence := false, ctrl := .idle }
      filter := if s.ckpt.generation = 65535 then [] else s.filter
      log := { s.log with allocated := r.mark }
      restore := { s.restore with walk := none } } := by
  refine ⟨{ target := k, floor := r.mark, position := s.log.head - 1, stage := .header, header := none
            oldData := none, applied := 0, stopped := false, quarantined := false }, rfl, rfl, ?_⟩
  simp only [startWalk, h, setCtrl, State.onCkpt, hm, if_true, finishWalk, walkOutcome, State.onRestore, hu, ho]
  simp only [List.isEmpty_nil, beq_self_eq_true, Bool.and_self, if_true, Bool.false_eq_true, if_false]
  rw [standDown_truncateTo (r := r) (by simpa [findCkpt] using h)]

/-- A line joins the unrestored list, field by field (R69). -/
theorem addUnrestored_fields (line : Nat) (s : State) : addUnrestored line s = { s with
    restore := { s.restore with
      unrestored := if s.restore.unrestored.length < 16 ∧ line ∉ s.restore.unrestored
        then s.restore.unrestored ++ [line] else s.restore.unrestored
      overflow := if 16 ≤ s.restore.unrestored.length ∧ line ∉ s.restore.unrestored
        then min (s.restore.overflow + 1) 65535 else s.restore.overflow } } := by
  simp only [addUnrestored, State.onRestore, Config.unrestoredCap, Config.count16Max]
  by_cases h : line ∈ s.restore.unrestored
  · simp [h]
  · by_cases h2 : s.restore.unrestored.length < 16
    · simp [h, h2, show ¬ 16 ≤ s.restore.unrestored.length by omega]
    · simp [h, h2, show 16 ≤ s.restore.unrestored.length by omega]

/-! ## Sends on a full list -/

/-- A message on a full UP list (R158). -/
theorem produce_up_full {m : Message} {s : State} (h : 4 ≤ s.casc.upList.length) : produce m .up s =
    if (s.casc.upList.drop 1).any isAsk then { s with casc := { s.casc with
      upList := s.casc.upList.take 1 ++ (s.casc.upList.drop 1).filter (fun x => !isAsk x) ++ [m] } }
    else latch .cascadeFault s := by
  simp [produce, sendList, Nat.not_lt.2 h, setSendList, State.onCasc]

/-- A message on a full DOWN list (R158). -/
theorem produce_down_full {m : Message} {s : State} (h : 4 ≤ s.casc.downList.length) :
    produce m .down s =
    if (s.casc.downList.drop 1).any isAsk then { s with casc := { s.casc with
      downList := s.casc.downList.take 1 ++ (s.casc.downList.drop 1).filter (fun x => !isAsk x) ++ [m] } }
    else latch .cascadeFault s := by
  simp [produce, sendList, Nat.not_lt.2 h, setSendList, State.onCasc]

end Sys2Proof.Machine
end

