-- ==== Sys2Proof/Laws/Due.lean ====
section
/-! SUPPORT. When each kind of step is due on an empty queue, in the words of Sys2Proof/Safety.lean. -/

namespace Sys2Proof.Machine

/-- With distinct numbers an entry is the one its number finds. -/
theorem find_entry {es : List Entry} (hn : (es.map Entry.num).Nodup) {e : Entry} (he : e ∈ es) :
    es.find? (fun x => x.num == e.num) = some e := by
  induction es with
  | nil => simp at he
  | cons a as ih =>
    simp only [List.map_cons, List.nodup_cons] at hn
    simp only [List.mem_cons] at he
    rcases he with rfl | he
    · simp
    · have : a.num ≠ e.num := fun h => hn.1 (h ▸ List.mem_map_of_mem he)
      simp [this, ih hn.2 he]

theorem mayExit_iff {s : State} (hn : (s.entries.map Entry.num).Nodup) {e : Entry} (he : e ∈ s.entries) :
    mayExit e.num s = true ↔ MayLeave s e := by
  have : entryAt e.num s = some e := find_entry hn he
  simp only [mayExit, this, MayLeave]
  cases h : e.ctx with
  | none => simp
  | some c => simp [pastHead, and_comm]

theorem dueExit_none {s : State} (hn : (s.entries.map Entry.num).Nodup) :
    dueExit s = none ↔ ∀ e ∈ s.entries, ¬ MayLeave s e := by
  simp only [dueExit, List.find?_eq_none, List.mem_map, forall_exists_index, and_imp,
    forall_apply_eq_imp_iff₂]
  constructor
  · intro h e he; rw [← mayExit_iff hn he]; exact h e he
  · intro h e he; rw [mayExit_iff hn he]; exact h e he

theorem deferrable_iff (s : State) : (deferrable s).isSome = true ↔ DeferralDue s := by
  unfold deferrable DeferralDue
  cases hq : s.up.queue with
  | nil => simp
  | cons h rest =>
    simp only [List.head?_cons, Option.mem_def, Option.some.injEq, exists_eq_left', inWindow_iff,
      List.any_eq_true, beq_iff_eq, Config.fenceCap]
    split <;> simp_all

/-- What the admission side offers is offered in the statements' words; the converse is
offered_of_offers. -/
theorem offers_of_offered {s : State} {p : Accepted × Bool} (h : offeredToTracker s = some p) :
    ∃ u, OffersToTracker s p.1 u := by
  unfold offeredToTracker at h
  split at h
  · split at h
    · simp at h
    · rename_i x rest hq
      split at h
      · simp at h; subst h
        refine ⟨{ s.up with queue := rest }, Or.inl ⟨by assumption, ?_⟩⟩; simp_all
      · simp at h
  · split at h
    · rename_i x rest hq
      simp at h; subst h
      refine ⟨{ s.up with fenceList := rest }, Or.inr (Or.inl ⟨by simp_all, ?_⟩)⟩; simp_all
    · cases hq : s.up.queue with
      | nil => simp [hq] at h
      | cons x rest =>
        simp [hq] at h; subst h
        refine ⟨{ s.up with queue := rest }, Or.inr (Or.inr ⟨by simp_all, ?_⟩)⟩; simp_all

theorem admission_iff (s : State) :
    ((offeredToTracker s).isSome ∧ (freeEntry s).isSome) ↔ AdmissionDue s := by
  refine and_congr ?_ ?_
  · constructor
    · intro h; obtain ⟨p, hp⟩ := Option.isSome_iff_exists.1 h
      obtain ⟨u, hu⟩ := offers_of_offered hp; exact ⟨_, u, hu⟩
    · rintro ⟨r, u, h⟩
      obtain ⟨b, hb, _⟩ := offered_of_offers h; simp [hb]
  · rw [freeEntry, List.find?_isSome]; simp

theorem timerDue_iff (t : Timer) : timerDue t = true ↔ Expired t := by simp [timerDue]

theorem tagTest_iff (u : TagUse) :
    (match u.state with
      | .outstanding _ (some t) => timerDue t
      | .outstanding _ none | .quarantined _ _ => false) = true ↔ TagDue u := by
  unfold TagDue
  split <;> simp_all [timerDue_iff]

theorem dueTag_none (d : Downstream) : dueTag d = none ↔ ∀ u ∈ d.tags, ¬ TagDue u := by
  simp only [dueTag, Option.map_eq_none_iff, List.find?_eq_none]
  exact ⟨fun h u hu ht => h u hu ((tagTest_iff u).2 ht), fun h u hu ht => h u hu ((tagTest_iff u).1 ht)⟩

theorem dueTag_some {d : Downstream} {before : List TagUse} {u : TagUse} {rest : List TagUse}
    (h : d.tags = before ++ u :: rest) (hu : TagDue u) (hb : ∀ x ∈ before, ¬ TagDue x) :
    dueTag d = some u.num := by
  refine congrArg (Option.map TagUse.num) (a₂ := some u)
    (List.find?_eq_some_iff_append.2 ⟨?_, before, rest, h, ?_⟩)
  · exact (tagTest_iff u).2 hu
  · intro x hx
    rw [Bool.not_eq_true', Bool.eq_false_iff]
    exact fun ht => hb x hx ((tagTest_iff x).1 ht)

theorem stall_iff (s : State) :
    (s.log.waitList.isEmpty = false ∧ s.log.stallLimit ≠ 0 ∧ s.log.stallLimit ≤ s.log.stallClock)
      ↔ StallDue s := by
  simp [StallDue]

theorem dueCascade_none {s : State} (h : ¬ AgreementDue s) : dueCascade s.casc = none := by
  unfold dueCascade; split
  · rfl
  · split
    · rfl
    · rename_i a ha t ht
      split
      · rename_i hd
        cases hr : s.casc.role <;> simp
        all_goals refine h ⟨by simp [hr], _, by assumption, _, by assumption, (timerDue_iff _).1 hd⟩
      · rfl

end Sys2Proof.Machine
end

