-- ==== Sys2Proof/Laws/Records.lean ====
section
/-! SUPPORT. What the operations of a record do: the notice of a write's end, the head advance over
finished positions, and the exit from COMMIT_WAIT. -/

namespace Sys2Proof.Machine

/-! ## Changes of one entry's context -/

/-- A PROTECTED entry that a change of its number leaves unfinished keeps the tracker unsettled. -/
theorem unsettled_changed {n : Fin 32} {s u : State} {e : Entry} {f : Entry → Entry}
    (he : entryAt n s = some e) (hu : u.entries = s.entries.map fun x => if x.num = n then f x else x)
    (h1 : (f e).cls = .guarded) (h2 : (f e).state ≠ .done) : settled u = false := by
  have hm := List.mem_of_find?_eq_some he
  have hn := entryAt_num he
  simp only [settled, hu, List.all_eq_false]
  refine ⟨f e, List.mem_map.2 ⟨e, hm, by simp [hn]⟩, ?_⟩
  simp [h1, h2]

/-- The context after a change of it. -/
theorem ctxAt_changed {n : Fin 32} {s u : State} {e : Entry} {c : RecordCtx} {f : RecordCtx → RecordCtx}
    (he : entryAt n s = some e) (hc : e.ctx = some c)
    (hu : u.entries = s.entries.map fun x => if x.num = n then { x with ctx := x.ctx.map f } else x) :
    ctxAt n u = some (f c) := by
  rw [ctxAt, entryAt_changed he hu (by intro x; rfl)]; simp [hc]

/-- The withdrawal of a record's waiting writes after a change g of its context (R140). -/
theorem withdrawWaiting_changed (n : Fin 32) (u v : State) (g : RecordCtx → RecordCtx)
    (hu : v.entries = u.entries.map fun x => if x.num = n then { x with ctx := x.ctx.map g } else x) :
    withdrawWaiting n v = { v with
      down := { v.down with preserveReady := v.down.preserveReady.filter fun r =>
        r.owner != .headerWrite n && r.owner != .dataWrite n }
      entries := u.entries.map fun x => if x.num = n then { x with ctx := x.ctx.map fun c =>
        { g c with
          header := if (g c).header = .waiting then .withdrawn else (g c).header
          data := if (g c).data = .waiting then .withdrawn else (g c).data } } else x } := by
  simp [withdrawWaiting, modCtx, modEntry, State.onDown, State.onEntries, hu]
  intro x hx; by_cases hxn : x.num = n <;> simp [hxn]
  congr 1

/-- The first failure of a record with a LIVE checkpoint and nobody waiting (R61, R140, R16). -/
theorem recordWriteBad_live {n : Fin 32} {w : RecWrite} {timedOut : Bool} {u : State} {c : RecordCtx}
    {r : CkptRecord} (hc : ctxAt n u = some c) (hf : c.failed = false) (hr : r ∈ u.ckpt.stack)
    (hl : r.state = .live) (hw : u.log.waitList = []) :
    recordWriteBad n w timedOut u = endRecord n { u with
      entries := u.entries.map fun x => if x.num = n then { x with ctx := x.ctx.map fun c =>
        { c with
          failed := true, quarantined := c.quarantined + (if timedOut then 1 else 0)
          header := if w = .header then .failed else if c.header = .waiting then .withdrawn else c.header
          data := if w = .data then .failed else if c.data = .waiting then .withdrawn else c.data } }
        else x
      down := { u.down with preserveReady := u.down.preserveReady.filter fun r =>
        r.owner != .headerWrite n && r.owner != .dataWrite n }
      ckpt := { u.ckpt with stack := u.ckpt.stack.map fun r => { r with state := .broken } }
      log := { u.log with stallClock := 0 }
      mgmt := { u.mgmt with latches := u.mgmt.latches ||| 0x004 } } := by
  simp only [recordWriteBad, hc, hf, Bool.false_eq_true, if_false]
  rw [breakAll_live (r := r) (by exact hr) hl (by exact hw), withdrawWaiting_changed n u _ _ rfl]
  congr 1
  cases w <;> simp [modCtx, modEntry, State.onEntries, setWriteState, hw] <;>
    intros <;> rfl

/-- The first failure of a record with no LIVE checkpoint (R61, R140, R16). -/
theorem recordWriteBad_broken {n : Fin 32} {w : RecWrite} {timedOut : Bool} {u : State} {c : RecordCtx}
    (hc : ctxAt n u = some c) (hf : c.failed = false) (hr : ∀ r ∈ u.ckpt.stack, r.state = .broken) :
    recordWriteBad n w timedOut u = endRecord n { u with
      entries := u.entries.map fun x => if x.num = n then { x with ctx := x.ctx.map fun c =>
        { c with
          failed := true, quarantined := c.quarantined + (if timedOut then 1 else 0)
          header := if w = .header then .failed else if c.header = .waiting then .withdrawn else c.header
          data := if w = .data then .failed else if c.data = .waiting then .withdrawn else c.data } }
        else x
      down := { u.down with preserveReady := u.down.preserveReady.filter fun r =>
        r.owner != .headerWrite n && r.owner != .dataWrite n } } := by
  simp only [recordWriteBad, hc, hf, Bool.false_eq_true, if_false]
  rw [breakAll_none (by exact hr), withdrawWaiting_changed n u _ _ rfl]
  congr 1
  cases w <;> simp [modCtx, modEntry, State.onEntries, setWriteState] <;>
    intros <;> rfl

/-- A later failure of a record that has failed (R61). -/
theorem recordWriteBad_again {n : Fin 32} {w : RecWrite} {timedOut : Bool} {u : State} {c : RecordCtx}
    (hc : ctxAt n u = some c) (hf : c.failed = true) :
    recordWriteBad n w timedOut u = endRecord n { u with
      entries := u.entries.map fun x => if x.num = n then { x with ctx := x.ctx.map fun c =>
        { setWriteState w .failed c with
          failed := true, quarantined := c.quarantined + (if timedOut then 1 else 0) } } else x } := by
  simp only [recordWriteBad, hc, hf, if_true]; rfl

/-! ## Head -/

/-- Head passes a position, the notices taken as read (R33, R3). -/
def pass (s : State) (o : RecOutcome) : State := { s with
  ckpt := { s.ckpt with stack := s.ckpt.stack.dropLast ++ (s.ckpt.stack.getLast?.map fun r =>
    { r with records := min (r.records + 1) (2 ^ 26) }).toList }
  log := { s.log with
    head := s.log.head + 1, finished := []
    tail := if s.ckpt.stack = [] then s.log.head + 1 else s.log.tail }
  mgmt := { s.mgmt with counters := { s.mgmt.counters with
    recordsWritten := if o = .failed then s.mgmt.counters.recordsWritten
      else satInc s.mgmt.counters.recordsWritten } } }

/-- The notices passHead keeps apart, it is pass. -/
theorem passHead_pass (o : RecOutcome) (s : State) : passHead o s = ({ pass s o with
    log := { (pass s o).log with finished := s.log.finished.filter (fun y => y.1 != s.log.head) } }
      : State) := by
  have hs : ∀ l : List CkptRecord, l ≠ [] →
      modCurrent (fun r => { r with records := min (r.records + 1) (2 ^ 26) }) l ≠ [] := by
    intro l hl h
    cases l with
    | nil => exact hl rfl
    | cons a l => simp [modCurrent, List.getLast?_cons] at h
  by_cases ho : o = .failed <;> by_cases he : s.ckpt.stack = [] <;>
    simp [passHead, pass, ho, State.onCkpt, State.onLog, countRecordWritten, State.onMgmt,
      Config.recordsMax, he, onCounters] <;>
    first | done | (simp [modCurrent]; done) | (exact ⟨fun a => absurd a (hs _ he), rfl⟩)

/-- A position within reach above a position is another one. -/
theorem position_ne {h : Position} {k : Nat} (h0 : 0 < k) (hk : k < 2 ^ 32) : h + BitVec.ofNat 32 k ≠ h := by
  intro he
  have h2 : BitVec.ofNat 32 k = 0 := by bv_omega
  have h3 := congrArg BitVec.toNat h2
  simp at h3; omega

/-- One more than a distance from one position on. -/
theorem offset_succ {x h : Position} {n : Nat} (hn : n + 1 < 2 ^ 32) :
    (n ≤ (x - (h + 1)).toNat ∧ x ≠ h) ↔ n + 1 ≤ (x - h).toNat := by
  have h1 : x - (h + 1) = x - h - 1 := by bv_omega
  have h2 : x ≠ h ↔ x - h ≠ 0 := by constructor <;> intro a b <;> apply a <;> bv_omega
  rw [h1, h2]
  generalize x - h = d
  constructor
  · rintro ⟨a, b⟩; bv_omega
  · intro a; refine ⟨by bv_omega, ?_⟩; rintro rfl; simp at a

/-- What pass makes of a state does not depend on the notices. -/
theorem foldl_pass_finished (l : List RecOutcome) : ∀ (s : State) (f : List (Position × RecOutcome)),
    l.foldl pass ({ s with log := { s.log with finished := f } } : State)
      = { l.foldl pass s with log := { (l.foldl pass s).log with
          finished := if l = [] then f else [] } } := by
  induction l with
  | nil => intro s f; rfl
  | cons o l ih =>
    intro s f
    have h : pass ({ s with log := { s.log with finished := f } } : State) o = pass s o := rfl
    have h2 : (l.foldl pass (pass s o)).log.finished = [] := by
      cases l with
      | nil => rfl
      | cons o2 l2 =>
        have := congrArg (fun x : State => x.log.finished) (ih (pass s o) [])
        simpa [show ({ pass s o with log := { (pass s o).log with finished := [] } } : State) = pass s o
          from rfl] using this
    simp only [List.foldl_cons, h, if_neg (List.cons_ne_nil o l)]
    rw [← h2]

/-- Head advances over the consecutive positions finished from it on, and stops at the first unfinished one,
the notices beyond kept (R33). -/
theorem advanceHead_consecutive (after : List RecOutcome) : ∀ (k : Nat) (s : State), after.length ≤ k →
    after.length ≤ (s.log.allocated - s.log.head).toNat →
    (∀ j p, after[j]? = some p → s.log.finished.find? (fun x => x.1 == s.log.head + BitVec.ofNat 32 j)
      = some (s.log.head + BitVec.ofNat 32 j, p)) →
    (∀ x ∈ s.log.finished, x.1 ≠ s.log.head + BitVec.ofNat 32 after.length) →
    advanceHead k s = { after.foldl pass s with log := { (after.foldl pass s).log with
      finished := s.log.finished.filter fun x => after.length ≤ (x.1 - s.log.head).toNat } } := by
  induction after with
  | nil =>
    intro k s _ _ _ hf
    have hn : s.log.finished.find? (fun x => x.1 == s.log.head) = none := by simpa using hf
    cases k <;> simp [advanceHead, hn]
  | cons o rest ih =>
    intro k s hk hd hf hs
    cases k with
    | zero => simp at hk
    | succ k =>
      have hne : s.log.head ≠ s.log.allocated := by intro h; simp [h] at hd
      have hlt : rest.length + 1 < 2 ^ 32 := lt_of_le_of_lt hd (BitVec.isLt _)
      have hfind : s.log.finished.find? (fun x => x.1 == s.log.head) = some (s.log.head, o) := by
        simpa using hf 0 o rfl
      have hadd : ∀ m : Nat, s.log.head + BitVec.ofNat 32 (m + 1) = s.log.head + 1 + BitVec.ofNat 32 m := by
        intro m
        rw [BitVec.add_assoc]; congr 1
        apply BitVec.eq_of_toNat_eq; simp; omega
      simp only [advanceHead, hne, if_false, hfind]
      rw [passHead_pass, ih k _ (by simpa using hk)]
      · rw [foldl_pass_finished]
        simp only [List.foldl_cons, List.filter_filter, List.length_cons]
        congr 2
        apply List.filter_congr
        intro x hx
        rw [Bool.eq_iff_iff]
        simp only [Bool.and_eq_true, decide_eq_true_eq, bne_iff_ne]
        exact offset_succ hlt
      · simp only [pass]
        simp at hd
        have : s.log.allocated - (s.log.head + 1) = s.log.allocated - s.log.head - 1 := by bv_omega
        rw [this]; bv_omega
      · intro j p hj
        have hf1 := hf (j + 1) p (by simpa using hj)
        have hj2 : j < rest.length := (List.getElem?_eq_some_iff.1 hj).1
        rw [hadd] at hf1
        simp only [pass]
        rw [List.find?_filter, ← hf1]
        congr 1; funext x
        by_cases hx : x.1 = s.log.head + 1 + BitVec.ofNat 32 j
        · have : x.1 ≠ s.log.head := by rw [hx, ← hadd]; exact position_ne (by omega) (by omega)
          have h1 : (x.1 != s.log.head) = true := by simpa using this
          rw [h1]; simp only [true_and, Bool.decide_eq_true]
        · have h1 : (x.1 == s.log.head + 1 + BitVec.ofNat 32 j) = false := by simpa using hx
          rw [h1]; simp only [Bool.false_eq_true, and_false, decide_false]
      · intro x hx
        simp only [pass] at hx ⊢
        rw [← hadd]; exact hs x (List.mem_of_mem_filter hx)

/-! ## The exit from COMMIT_WAIT -/

/-- An entry leaves COMMIT_WAIT, field by field but for the filter and the count of displacements (R63). -/
theorem leaveCommitWait_fields {n : Fin 32} {s : State} {e : Entry} (he : entryAt n s = some e) :
    ∃ f m, leaveCommitWait n s = { s with
      entries := s.entries.map fun x => if x.num = n then { x with state := .issuing, ctx := none } else x
      down := { s.down with hostReady := s.down.hostReady ++ [⟨.host n, e.op, e.line⟩] }
      filter := f, mgmt := m } := by
  have key : ∀ f m, issue n (modEntry n (fun e => { e with ctx := none }) { s with filter := f, mgmt := m })
      = { s with
        entries := s.entries.map fun x => if x.num = n then { x with state := .issuing, ctx := none } else x
        down := { s.down with hostReady := s.down.hostReady ++ [⟨.host n, e.op, e.line⟩] }
        filter := f, mgmt := m } := by
    intro f m
    have : entryAt n (modEntry n (fun e => { e with ctx := none }) { s with filter := f, mgmt := m })
        = some { e with ctx := none } :=
      entryAt_changed (s := s) (f := fun e => { e with ctx := none }) he rfl (by intro x; rfl)
    rw [issue_entry this]
    simp [modEntry, State.onEntries]
    intro x hx; by_cases hxn : x.num = n <;> simp [hxn]
  unfold leaveCommitWait
  simp only [he]
  generalize (preserving s && _) = b
  cases b with
  | false => exact ⟨s.filter, s.mgmt, key _ _⟩
  | true =>
    simp only [if_true, filterInsert]
    generalize (victim _ _ _) = v
    cases hv : v.2 with
    | false => exact ⟨_, s.mgmt, key _ s.mgmt⟩
    | true => exact ⟨_, _, key _ _⟩

end Sys2Proof.Machine
end

