-- ==== Sys2Proof/Tests/Slice0.lean ====
section
/-! SUPPORT. Tests: the WellFormed checks, the worked examples and tables of spec/, and for each
statement of Certificates/Slice0/Obligations.lean a witness that meets its hypotheses. -/

namespace Sys2Proof.Tests

-- One test at a time: many kernel evaluations side by side would each take a thread of their own.
set_option Elab.async false

open Sys2Proof.Machine

/-! ## WellFormed: each check refuses an ill-formed command -/

theorem test_illFormed_line : (Instr.requestTaken ⟨0, .read, 2 ^ 34⟩).wellFormed = false := by decide
theorem test_wellFormed_line : (Instr.requestTaken ⟨0, .read, 2 ^ 34 - 1⟩).wellFormed = true := by decide
theorem test_illFormed_badMessage :
    (Instr.badMessage .up [3, 7, 0, 12, 0, 0x3F]).wellFormed = false := by decide
theorem test_illFormed_prepare : (Instr.prepareReceived .up 1 .rollback 0).wellFormed = false := by decide
theorem test_illFormed_go : (Instr.goReceived .up 1 0).wellFormed = false := by decide
theorem test_illFormed_badFrame : (Instr.badFrame [1, 0, 0x54]).wellFormed = false := by decide
theorem test_illFormed_unknown : (Instr.unknownCommand [1, 0, 0x54]).wellFormed = false := by decide

/-! ## Formats: bytes written out from section 11 -/

/-- IDENTIFY is 01 00 54 (11.2, the sum 0x55). -/
theorem test_frame_identify : judgeFrame [0x01, 0x00, 0x54] = .good .identify := by decide
/-- ROLLBACK 7 is 22 02 00 07 2A. -/
theorem test_frame_rollback : judgeFrame [0x22, 0x02, 0x00, 0x07, 0x2A] = .good (.rollback 7) := by decide
/-- SET_DOWNSTREAM: limit, HOST, PRESERVE, RESTORE, timeout. -/
theorem test_frame_setDownstream :
    judgeFrame [0x13, 0x06, 4, 2, 1, 4, 0x07, 0xD0, 0x5A] = .good (.setDownstream 4 2 1 4 2000) := by
  decide
/-- A wrong check byte (R178, check 1). -/
theorem test_frame_badCheck : judgeFrame [0x01, 0x00, 0x55] = .badFrame := by decide
/-- GO for id 7 with number 12 is 03 07 00 0C 00 3F (11.3). -/
theorem test_message_go : decodeMessage [0x03, 0x07, 0x00, 0x0C, 0x00, 0x3F] = some (.go 7 12) := by decide
/-- The CRC-32 of the nine bytes 31 to 39 (R218). -/
theorem test_crc : crc32 (0x313233343536373839#72) = 0xFC891918#32 := by decide +kernel
/-- The poisoned header of 11.1: checkpoint 12, position 500, line 9000. -/
theorem test_poisonedHeader :
    (headerTop true 12 500 9000).extractLsb' 280 168
      = 0x454B5231_01_000000_000C_0000_000001F4_0000002328#168 := by decide +kernel
theorem test_identifyLength : identifyPayload.length = 21 := by decide
theorem test_statusLength : (statusPayload State.reset).length = 200 := by decide +kernel
theorem test_resultLength : (resultPayload none).length = 16 := by decide

/-! ## Small states -/

/-- The state after a command. -/
def after (i : Instr) (s : State) : State :=
  match exec i s with
  | .next t => t
  | .fault _ => s
  | .refused _ => s

/-- A request phase is open. -/
def w0 : State := State.reset.onMgmt fun m => { m with mcsLow := true, decoder := .request }
/-- And both channels are occupied. -/
def wBusy : State :=
  (w0.onUp fun u => { u with channel := some 99 }).onDown fun d => { d with channel := some 31 }
/-- And a log of 16 records at line 0 and a window of lines 100 to 109 are configured. -/
def wLog : State :=
  (wBusy.onLog fun l => { l with configured := true, capacity := 16, watermark := 12, stallLimit := 5 }).onCls
    fun c => { c with windows := c.windows.set 0 ⟨true, 100, 10⟩ }
/-- And checkpoint 1 is current and LIVE, its mark at head. -/
def wLive : State := wLog.onCkpt fun c =>
  { c with stack := [⟨1, 0, .live, 0, .command⟩], nextNumber := 2, generation := 1 }
/-- The controller is in a state. -/
def ctl (k : Ctrl) (s : State) : State := s.onCkpt fun c => { c with ctrl := k }
/-- The unit has a role. -/
def rol (r : Role) (last : Bool) (s : State) : State := s.onCasc fun c => { c with role := r, last := last }
/-- An agreement of id 7 is in progress. -/
def agr (g : Goal) (f : Agreement → Agreement) (s : State) : State := s.onCasc fun c =>
  { c with agreement := some (f (newAgreement 7 g .command .awaited 500)) }
/-- A PROTECTED write of line 100. -/
def wr : Accepted := ⟨1, .write 1 5, 100, .guarded, 0⟩
/-- Its entry, number 0, in a state. -/
def ent (st : EntryState) : Entry := { newEntry 0 wr with state := st }
/-- Its record context at position 0. -/
def rctx : RecordCtx := freshCtx 0 1
/-- A tag, number 0, with a taken request of an owner. -/
def tg (o : Owner) (op : LineOp) (s : State) : State := s.onDown fun d =>
  { d with tags := [⟨0, .outstanding ⟨o, op, 100⟩ (some ⟨0, 2000⟩)⟩] }
/-- The same tag quarantined. -/
def qtg (o : Owner) (k : RwKind) (s : State) : State := s.onDown fun d =>
  { d with tags := [⟨0, .quarantined k o⟩] }
/-- Entries in the tracker. -/
def ents (l : List Entry) (s : State) : State := s.onEntries fun _ => l
/-- The head of the admission queue. -/
def hd (r : Accepted) (s : State) : State := s.onUp fun u => { u with queue := [r] }

/-! ## Worked examples -/

/-- The six inserts of chapter 3's example, one filter set through two generations: the order left, and
the two displacements. -/
theorem test_filterExample :
    let ins := fun l s => filterInsert l s
    let s0 := { State.reset with
      filter := [⟨0, 37, 19⟩, ⟨1, 1061, 20⟩, ⟨3, 2085, 20⟩]
      ckpt := { Controller.reset with generation := 20 } }
    let s1 := ins 1061 (ins 37 (ins 4133 (ins 3109 s0)))
    let s2 := ins 4133 (ins 5157 { s1 with ckpt := { s1.ckpt with generation := 21 } })
    s1.filter = [⟨2, 3109, 20⟩, ⟨0, 4133, 20⟩, ⟨1, 37, 20⟩, ⟨3, 1061, 20⟩]
      ∧ s2.filter = [⟨1, 37, 20⟩, ⟨3, 1061, 20⟩, ⟨2, 5157, 21⟩, ⟨0, 4133, 21⟩]
      ∧ s2.mgmt.counters.filterDisplacements = 2 := by decide +kernel

/-- The first grants of chapter 7's example: H1, H2, then C, with the turn and the used count. -/
theorem test_arbiterExample :
    let q := fun (n : Fin 32) => (⟨.host n, .read, 0⟩ : DownReq)
    let s0 := { State.reset with down := { Downstream.reset with
      hostReady := [q 1, q 2, q 3], preserveReady := [⟨.capture 4, .read, 0⟩]
      limit := 4, wHost := 2, wPreserve := 1, wRestore := 4 } }
    let s1 := after .grant s0
    let s2 := after .downstreamRequestTaken s1
    let s3 := after .downstreamRequestTaken s2
    let s4 := after .downstreamRequestTaken s3
    [s1, s2, s3, s4].map (fun s => (s.down.channel, s.down.turn, s.down.used))
      = [(some 0, .host, 1), (some 1, .host, 2), (some 2, .preserve, 1), (some 3, .host, 1)] := by
  decide +kernel

/-- The head advance of chapter 2's example: with 105 finished, A's notice moves head to 104 and B's to
106. -/
theorem test_headExample :
    let c := fun (p : Position) => ({ freshCtx p 9 with header := .acknowledged } : RecordCtx)
    let e := fun (n : Fin 32) (p : Position) =>
      ({ newEntry n wr with line := n.val, state := .recording, ctx := some (c p) } : Entry)
    let s0 := { State.reset with
      entries := [e 0 103, e 1 104, e 2 105]
      log := { Log.reset with
        configured := true, capacity := 64, watermark := 48, tail := 100, head := 103, allocated := 106 }
      ckpt := { Controller.reset with stack := [⟨9, 100, .live, 3, .command⟩] } }
    let s1 := finishRecord 2 .written s0
    let s2 := finishRecord 0 .poisoned s1
    let s3 := finishRecord 1 .written s2
    [s1, s2, s3].map (fun s => (s.log.head, s.ckpt.stack.map CkptRecord.records))
      = [(103, [3]), (104, [4]), (106, [6])] := by decide +kernel

/-! ## Reset, time, laws -/

/-- One state for each step that can be due, among them the second of two entries, and the end of the
command reset. -/
theorem test_witness_EmptyQueueStep :
    let out := fun (n : Fin 32) (p : Position) =>
      ({ ent .commitWait with num := n, line := n.val, ctx := some { rctx with position := p } } : Entry)
    let exits := (ents [out 0 1, out 1 0] wLive).onLog fun l => { l with head := 1, allocated := 2 }
    let raised := (hd wr wLog).onCkpt fun c => { c with fence := true }
    let stall := wLog.onLog fun l => { l with waitList := [0], stallClock := 5 }
    let tag := wLog.onDown fun d => { d with tags :=
      [⟨3, .outstanding ⟨.host 0, .read, 0⟩ (some ⟨5, 0⟩)⟩, ⟨4, .outstanding ⟨.host 1, .read, 0⟩ (some ⟨5, 5⟩)⟩] }
    let agreement := agr .take (fun a => { a with timer := some ⟨500, 500⟩ })
    let timer := wLog.onCkpt fun c => { c with interval := 1 }
    let ends := State.reset.onPins fun p => { p with commandReset := some 10 }
    (exits.pending = [] ∧ inReset exits = false ∧ (exits.entries.map Entry.num).Nodup
        ∧ dueCommand exits = some (.commitWaitExit 1))
      ∧ dueCommand raised = some .fenceDeferral ∧ dueCommand (hd wr wLog) = some .admission
      ∧ dueCommand stall = some .stallLimitExpiry ∧ dueCommand tag = some (.downstreamTimeout 4)
      ∧ dueCommand (agreement (rol .leader false wLog)) = some .agreementTimeout
      ∧ dueCommand (agreement (rol .follower false wLog)) = some .holdTimeout
      ∧ dueCommand timer = some .intervalExpiry ∧ dueCommand ends = some (.commandResetEnd false) := by
  decide +kernel
/-- The clocks before their limits, the last microsecond of a millisecond, and the ninth of the command
reset. -/
theorem test_witness_MicrosecondPasses :
    let s := (agr .take id (tg (.host 0) .read (rol .leader false wLog))).onLog fun l =>
      { l with waitList := [0], stallClock := 4 }
    let t := s.onCkpt fun c => { c with interval := 2, intervalCount := 2, intervalMicros := 999 }
    let r := State.reset.onPins fun p => { p with commandReset := some 9 }
    (t.pending = [] ∧ inReset t = false ∧ dueCommand t = none)
      ∧ (passMicrosecond t).log.stallClock = 5 ∧ (passMicrosecond t).mgmt.counters.stallTime = 1
      ∧ tagState 0 (passMicrosecond t).down
          = some (.outstanding ⟨.host 0, .read, 100⟩ (some ⟨1, 2000⟩))
      ∧ ((passMicrosecond t).casc.agreement.bind Agreement.timer) = some ⟨1, 500⟩
      ∧ (passMicrosecond t).ckpt.intervalCount = 1
      ∧ (inReset r = true ∧ r.pending = [] ∧ (passMicrosecond r).pins.commandReset = some 10) := by
  decide +kernel

/-- A state with a checkpoint, a record under way, a filter way and a message to send. -/
def lawful : State :=
  { wLive with
    entries := [{ ent .capturing with ctx := some rctx }]
    log := { wLive.log with allocated := 1 }
    filter := [⟨0, 100, 1⟩]
    casc := { wLive.casc with upList := [.ask .line] }
    pending := [.take] }

theorem test_witness_CapacitiesKept : WithinCapacity lawful ∧ ∃ t, step lawful = .next t :=
  ⟨by decide +kernel, _, rfl⟩
theorem test_witness_StackLawKept : StackLaw lawful ∧ ∃ t, step lawful = .next t :=
  ⟨by decide +kernel, _, rfl⟩
theorem test_witness_RecordsLawKept : RecordsLaw lawful ∧ ∃ t, step lawful = .next t :=
  ⟨by decide +kernel, _, rfl⟩
theorem test_witness_FilterLawKept : FilterLaw lawful ∧ ∃ t, step lawful = .next t :=
  ⟨by decide +kernel, _, rfl⟩

theorem test_witness_FrameRoundTrip : encodeFrame (.rollback 7) = some [0x22, 0x02, 0x00, 0x07, 0x2A] := by
  decide
theorem test_witness_MessageRoundTrip :
    (Message.prepare 7 .take 0).wellFormed = true ∧ (Message.go 7 65535).wellFormed = true
      ∧ encodeMessage (.go 7 12) = [0x03, 0x07, 0x00, 0x0C, 0x00, 0x3F] := by decide
/-- The highest line of the memory, in a window of its own. -/
theorem test_witness_RecordRoundTrip :
    let c := { Classifier.reset with windows := Classifier.reset.windows.set 7 ⟨true, 2 ^ 34 - 1, 1⟩ }
    2 ^ 34 - 1 < c.memSize ∧ inWindow (2 ^ 34 - 1) c = true := by decide
/-- Each of R77's six conditions alone, in their order, beside two headers that pass. -/
theorem test_witness_RecordRoundTrip_corrupt :
    let good := assembleHeader 1 3 100 (some 9)
    let poison := assembleHeader 1 3 100 none
    let c : Classifier := { Classifier.reset with windows := Classifier.reset.windows.set 0 ⟨true, 100, 10⟩ }
    let bit := fun (n : Nat) (h : LineData) => h ^^^ (1 <<< n)
    let bad := fun h => headerCorrupt h 3 c
    bad good = false ∧ bad poison = false
      ∧ bad (bit 480 good) = true ∧ bad (bit 473 good) = true ∧ headerCorrupt good 4 c = true
      ∧ headerCorrupt good 3 { c with memSize := 100 } = true
      ∧ headerCorrupt good 3 { c with memSize := 101 } = false
      ∧ bad (assembleHeader 1 3 99 (some 9)) = true ∧ bad (assembleHeader 1 3 109 (some 9)) = false
      ∧ bad (assembleHeader 1 3 110 (some 9)) = true
      ∧ bad (bit 32 poison) = true ∧ bad (bit 32 good) = false := by decide +kernel
/-- Next number held, at the wrap: 65535 is on the stack, so 1 is assigned. -/
theorem test_witness_AssignedNumber :
    let s := { State.reset with ckpt := { Controller.reset with
      stack := [⟨65535, 0, .live, 0, .command⟩], nextNumber := 65535 } }
    s.ckpt.stack.length ≤ 8 ∧ s.ckpt.nextNumber ≠ 0 ∧ assignedNumber s = 1
      ∧ (∀ r ∈ wLive.ckpt.stack, r.number ≠ wLive.ckpt.nextNumber) := by decide

/-! ## The management port -/

theorem test_witness_Transactions :
    let closed := State.reset
    let warm := w0.onMgmt fun m => { m with warmPending := true }
    let held := closed.onPins fun p => { p with wrstLow := true }
    (closed.mgmt.mcsLow = false ∧ inReset closed = false ∧ closed.mgmt.decoder = .waiting)
      ∧ (held.mgmt.mcsLow = false ∧ inReset held = true)
      ∧ (w0.mgmt.mcsLow = true ∧ w0.mgmt.warmPending = false ∧ inReset w0 = false
          ∧ w0.mgmt.decoder = .request)
      ∧ (warm.mgmt.mcsLow = true ∧ warm.mgmt.warmPending = true)
      ∧ (after .identify w0).mgmt.decoder = .answered
      ∧ (encodeFrame .take).isSome = true := by decide

/-- One frame for each of the five judgements, at the lengths 32 and 33. -/
theorem test_witness_FrameChecks :
    Listening w0 .answered
      ∧ judgeFrame [0x01, 0x00, 0x55] = .badFrame
      ∧ judgeFrame (0x01 :: 33 :: List.replicate 33 0 ++ [0x33]) = .badFrame
      ∧ sumBytes (0x01 :: 33 :: List.replicate 33 0 ++ [0x33]) = 0x55
      ∧ judgeFrame (0x02 :: 32 :: List.replicate 32 0 ++ [0x33]) = .unknown
      ∧ judgeFrame [0x20, 0x01, 0x00, 0x34] = .badFrame := by decide

theorem test_witness_StatusPayload : Listening w0 .answered := by decide
theorem test_witness_PlainReads :
    InRequest w0 ∧ w0.mgmt.result = none ∧ (after .take wLive).mgmt.result.isSome = true := by
  decide +kernel
/-- The option absent, 0, 1 and 2, and 1 in RESTORING. -/
theorem test_witness_ReadUnrestoredClearCounters :
    InRequest w0 ∧ (∀ k, w0.ckpt.ctrl ≠ .restoring k) ∧ (ctl (.restoring 1) w0).ckpt.ctrl = .restoring 1
      ∧ 1 < (2 : Byte).toNat := ⟨by decide, nofun, rfl, by decide⟩
/-- A cause just outside the ten, and the last inside. -/
theorem test_witness_AlertCommands :
    InRequest w0 ∧ (0x400 : BitVec 16).getLsbD 10 = true
      ∧ (after (.setAlertMask 0x200) w0).mgmt.mask = 0x200
      ∧ (after (.setAlertMask 0x400) w0).mgmt.response = some ⟨0x12, []⟩ := by decide

/-- The size at 0, 1 and 2^34, beside a log that ends at line 32; windows at the edges of window 0 (lines
100 to 109) and of the log (lines 0 to 31), and an index of 8. -/
theorem test_witness_SetMemorySizeAndWindow :
    let size := fun n s => (after (.setMemorySize n) s).mgmt.response
    let win := fun i b n s => (after (.setWindow i 1 b n) s).mgmt.response
    Listening w0 .answered ∧ Unrestricted w0 ∧ ¬ Unrestricted wLive
      ∧ size 0 w0 = some ⟨0x12, []⟩ ∧ size 1 w0 = some ⟨0, []⟩ ∧ size 0x400000000 w0 = some ⟨0, []⟩
      ∧ size 0x400000001 w0 = some ⟨0x12, []⟩ ∧ size 109 wLog = some ⟨0x12, []⟩
      ∧ size 110 wLog = some ⟨0, []⟩ ∧ size 110 wLive = some ⟨0x11, []⟩
      ∧ win 1 110 5 wLog = some ⟨0, []⟩ ∧ win 1 109 1 wLog = some ⟨0x13, []⟩
      ∧ win 1 31 1 wLog = some ⟨0x13, []⟩ ∧ win 1 32 68 wLog = some ⟨0, []⟩
      ∧ win 0 105 1 wLog = some ⟨0, []⟩ ∧ win 8 200 1 wLog = some ⟨0x12, []⟩
      ∧ win 1 200 0 wLog = some ⟨0x12, []⟩ ∧ win 1 200 1 wLive = some ⟨0x11, []⟩ := by decide +kernel
/-- The lowest and highest capacity, one below it, a base meeting window 0, and a reservation unfinished. -/
theorem test_witness_SetLog :
    let log := fun b c s => (after (.setLog b c 0 0 0) s).mgmt.response
    log 0 16 wLog = some ⟨0, []⟩ ∧ log 110 0x4000000 wLog = some ⟨0, []⟩
      ∧ log 0 8 wLog = some ⟨0x12, []⟩ ∧ log 1 16 wLog = some ⟨0x12, []⟩
      ∧ log 70 16 wLog = some ⟨0x13, []⟩
      ∧ log 0 16 (wLog.onLog fun l => { l with allocated := 1 }) = some ⟨0x11, []⟩ := by decide +kernel
theorem test_witness_SetDownstreamAndCascade :
    let d := fun l w s => (after (.setDownstream l w 1 1 0) s).mgmt.response
    let c := fun r a s => (after (.setCascade r 0 a 1) s).mgmt.response
    d 32 15 wBusy = some ⟨0, []⟩ ∧ d 33 15 wBusy = some ⟨0x12, []⟩ ∧ d 0 15 wBusy = some ⟨0x12, []⟩
      ∧ d 1 16 wBusy = some ⟨0x12, []⟩ ∧ d 1 1 wLive = some ⟨0x11, []⟩
      ∧ c 2 1 wBusy = some ⟨0, []⟩ ∧ c 3 1 wBusy = some ⟨0x12, []⟩ ∧ c 2 0 wBusy = some ⟨0x12, []⟩
      ∧ c 0 1 wLive = some ⟨0x11, []⟩ := by decide +kernel
theorem test_witness_SetTriggers :
    let held := (ctl (.held .corrupt) wBusy).onCkpt fun c => { c with lineFlag := true }
    (Listening wBusy .answered ∧ ChannelsBusy wBusy ∧ isHeld wBusy = false
        ∧ wBusy.ckpt.cascadeFlag = false ∧ wBusy.ckpt.lineFlag = false)
      ∧ (Listening held .answered ∧ ChannelsBusy held ∧ isHeld held = true ∧ held.casc.role = .solo
          ∧ held.ckpt.lineFlag = true ∧ held.ckpt.lineEnable = false)
      ∧ (after (.setTriggers 2 0 0 0) wBusy).mgmt.response = some ⟨0x12, []⟩ := by decide +kernel

/-! ## Resets -/

/-- A controller in each state of R26, a follower's agreement and a leader's, and the results written. -/
theorem test_witness_WarmReset :
    let res := fun s => (after .wrstNAssert s).mgmt.result
    let walk := (ctl (.restoring 1) wLive).onRestore fun r =>
      { r with walk := some ⟨1, 0, 3, .header, none, none, 2, false, false⟩ }
    (after .wrstNAssert (ctl (.restoring 1) wLive)).ckpt.ctrl = .held .interrupted
      ∧ (after .wrstNAssert (ctl (.settling .take .line) wLive)).ckpt.ctrl = .idle
      ∧ (after .wrstNAssert (ctl (.held .corrupt) wLive)).ckpt.fence = true
      ∧ (after .wrstNAssert (agr .take id (rol .follower true wLive))).casc.abandoned = some 7
      ∧ res walk = some ⟨.rollback, .command, .interrupted, some 1, 2, 0, none⟩
      ∧ res (agr .take (fun a => { a with go := true, pushed := some 3 }) (rol .leader false wLive))
          = some ⟨.take, .command, .interrupted, some 3, 0, 0, some 7⟩
      ∧ res (ctl (.agreeing (.rollback 1) .command) wLive)
          = some ⟨.rollback, .command, .interrupted, some 1, 0, 0, none⟩ := by decide +kernel
theorem test_witness_PowerOnReset :
    let s := after .porstNAssert wLive
    (s.pins = ⟨true, false, none⟩ ∧ s.up = Upstream.reset ∧ s.entries = [])
      ∧ (s.onPins fun p => { p with wrstLow := true }).pins.wrstLow = true
      ∧ inReset (after .wrstNAssert wLive) = true := by decide +kernel
/-- An end by the line and by the command's 10 µs, one with the other reset asserted, one with a request
offered. -/
theorem test_witness_WarmResetEnd :
    let s := (after .wrstNAssert wLive).onUp fun u => { u with offered := some ⟨1, .read, 0⟩ }
    let t := State.reset.onPins fun p => { p with commandReset := some 10, porstLow := true }
    let pins : Pins := { s.pins with wrstLow := false }
    (s.pins.wrstLow = true ∧ inReset { s with pins := pins } = false
        ∧ s.up = { Upstream.reset with offered := s.up.offered } ∧ s.entries = [] ∧ 0 < s.cls.memSize)
      ∧ (t.pins.commandReset.isSome = true ∧ inReset { t with pins := { t.pins with commandReset := none } } = true) := by
  decide +kernel

/-! ## Checkpoint operations -/

theorem test_witness_LongCommandRefusals :
    let take := fun s => (after .take s).mgmt.response
    let roll := fun k s => (after (.rollback k) s).mgmt.response
    take (rol .follower true wLive) = some ⟨0x11, []⟩
      ∧ take (agr .take id (rol .leader false wLive)) = some ⟨0x10, []⟩
      ∧ take (ctl (.held .corrupt) wLive) = some ⟨0x11, []⟩
      ∧ take (ctl (.restoring 1) wLive) = some ⟨0x10, []⟩ ∧ take wBusy = some ⟨0x17, []⟩
      ∧ take (wLive.onCkpt fun c => { c with stack := List.replicate 8 ⟨1, 0, .live, 0, .command⟩ })
          = some ⟨0x14, []⟩
      ∧ roll 0 wLive = some ⟨0x12, []⟩ ∧ roll 2 wLive = some ⟨0x15, []⟩
      ∧ roll 1 (markBroken wLive) = some ⟨0x16, []⟩ := by decide +kernel
theorem test_witness_TakeStarts :
    let s := ents [ent .issuing] wLog
    Listening s .answered ∧ s.casc.agreement = none ∧ s.ckpt.ctrl = .idle ∧ s.log.configured = true
      ∧ s.ckpt.stack.length < 8 ∧ settled s = false ∧ s.casc.role = .solo
      ∧ (rol .leader false s).casc.downList.length < 4 := by decide
theorem test_witness_TakeCompletes :
    let s := ctl (.settling .take .line) wLog
    let f := agr .take id (rol .follower false s)
    (settled wLog = true ∧ Listening wLog .answered ∧ wLog.casc.role = .solo
        ∧ wLog.casc.agreement = none ∧ wLog.ckpt.ctrl = .idle ∧ wLog.log.configured = true
        ∧ wLog.ckpt.stack.length < 8)
      ∧ (inReset s = false ∧ s.ckpt.ctrl = .settling .take .line ∧ ChannelsBusy s ∧ NoFlags s)
      ∧ (f.casc.role ≠ .solo ∧ (f.casc.agreement.map Agreement.below) = some .awaited
          ∧ (f.casc.agreement.map Agreement.go) = some false) := by decide
/-- RELEASE of 0, of the depth and of one more, and with an entry waiting on a log just freed. -/
theorem test_witness_ReleaseCommand :
    let rel := fun n s => (after (.release n) s).mgmt.response
    let two := wLive.onCkpt fun c =>
      { c with stack := [⟨1, 0, .live, 16, .command⟩, ⟨2, 16, .live, 0, .command⟩] }
    let s := (ents [ent .logWait] two).onLog fun l => { l with head := 16, allocated := 16, waitList := [0] }
    rel 0 wLive = some ⟨0x12, []⟩ ∧ rel 1 wLive = some ⟨0, []⟩ ∧ rel 2 wLive = some ⟨0x12, []⟩
      ∧ rel 1 (ctl (.held .corrupt) wLive) = some ⟨0x11, []⟩
      ∧ s.log.waitList = [0] ∧ (entryAt 0 s).isSome = true
      ∧ (s.ckpt.stack.drop 1).getLast? = some ⟨2, 16, .live, 0, .command⟩
      ∧ (s.log.allocated - 16).toNat ≠ s.log.capacity
      ∧ (after (.release 1) s).log.allocated = 17
      ∧ (after (.release 2) s).down.hostReady.length = 1 := by decide +kernel
/-- A tracker that holds the settle back, and one already settled, the controller in IDLE and in HELD, a
record in the range and none. -/
theorem test_witness_RollbackAccepted :
    let s := ents [ent .issuing] wLive
    let h := ctl (.held .corrupt) wLive
    let up := h.onLog fun l => { l with head := 3, allocated := 3 }
    (Listening s .answered ∧ s.casc.agreement = none ∧ s.ckpt.ctrl = .idle
        ∧ (findCkpt 1 s).map CkptRecord.state = some .live ∧ s.log.waitList = []
        ∧ rollbackSettled s = false ∧ ChannelsBusy s ∧ s.casc.role = .solo
        ∧ (rol .leader false s).casc.downList.length < 4)
      ∧ (Listening h .answered ∧ rollbackSettled h = true ∧ NoFlags h
          ∧ (findCkpt 1 h).map CkptRecord.mark = some h.log.head
          ∧ (findCkpt 1 up).map CkptRecord.mark ≠ some up.log.head)
      ∧ (after (.rollback 1) up).ckpt.ctrl = .restoring 1 ∧ (after (.rollback 1) h).ckpt.ctrl = .idle
      ∧ (after (.rollback 1) (rol .leader false h)).ckpt.ctrl = .agreeing (.rollback 1) .command := by
  decide +kernel
/-- Three entries waiting and room for two: the two oldest reserve in order, the third stays, the clock runs
on, and the second reservation meets the watermark. -/
theorem test_witness_ReleaseCommand_order :
    let e := fun (n : Fin 32) => ({ newEntry n wr with state := .logWait, line := 100 + n.val } : Entry)
    let two := wLive.onCkpt fun c =>
      { c with stack := [⟨1, 0, .live, 2, .command⟩, ⟨2, 2, .live, 14, .command⟩] }
    let s := (ents [e 0, e 1, e 2] two).onLog fun l =>
      { l with head := 16, allocated := 16, waitList := [2, 0, 1], stallClock := 3, watermark := 16 }
    let t := after (.release 1) s
    (Listening s .answered ∧ ChannelsBusy s ∧ s.log.waitList.Nodup ∧ s.log.capacity ≤ 2 ^ 26
        ∧ (s.ckpt.stack.drop 1).getLast? = some ⟨2, 2, .live, 14, .command⟩)
      ∧ t.entries.map (fun x => (x.state, x.ctx.map RecordCtx.position))
          = [(.capturing, some 17), (.logWait, none), (.capturing, some 16)]
      ∧ (t.log.allocated, t.log.tail, t.log.waitList, t.log.stallClock) = (18, 2, [1], 3)
      ∧ t.down.preserveReady.map DownReq.line = [102, 100] ∧ t.mgmt.latches = 0x008 := by decide +kernel
theorem test_witness_RollbackFencesWaiting :
    let s := (ents [ent .logWait] wLive).onLog fun l => { l with waitList := [0] }
    Listening s .answered ∧ s.casc.role = .solo ∧ s.casc.agreement = none ∧ s.ckpt.ctrl = .idle
      ∧ (findCkpt 1 s).map CkptRecord.state = some .live ∧ (s.entries.map Entry.num).Nodup
      ∧ entryAt 0 s = some (ent .logWait)
      ∧ ((entryAt 0 (after (.rollback 1) s)).bind Entry.status) = some .fenced := by decide +kernel
/-- The target BROKEN, LIVE with head above its mark, and LIVE with its mark at head. -/
theorem test_witness_RollbackSettles :
    let s := ctl (.settling (.rollback 1) .command) wLive
    let up := s.onLog fun l => { l with head := 3, allocated := 3 }
    inReset s = false ∧ s.casc.role = .solo ∧ s.casc.agreement = none ∧ rollbackSettled s = true
      ∧ NoFlags s ∧ ChannelsBusy s ∧ targetLive 1 (markBroken s) = false
      ∧ (findCkpt 1 s).map CkptRecord.mark = some s.log.head
      ∧ (findCkpt 1 up).map CkptRecord.mark ≠ some up.log.head
      ∧ s.restore.unrestored = [] ∧ s.restore.overflow = 0 := by decide +kernel
/-- READY awaited, taken and not needed; a target BROKEN at a leader, and at a follower that has sent no
READY and that has sent one. -/
theorem test_witness_SettlesInChain :
    let at_ := fun g f r last s => ctl (.settling g .command) (agr g f (rol r last s))
    let ok := fun (a : Agreement) => { a with below := .ok }
    let l := at_ .take id .leader false wLive
    let b := fun r (f : Agreement → Agreement) => at_ (.rollback 1) f r false (markBroken wLive)
    (inReset l = false ∧ l.casc.role ≠ .solo ∧ ChannelsBusy l ∧ settled l = true ∧ rollbackSettled l = true
        ∧ NoFlags l ∧ (l.casc.agreement.map fun a => (a.go, a.below, a.readySent)) = some (false, .awaited, .none))
      ∧ (after .takeSettled l).ckpt.ctrl = .agreeing .take .command
      ∧ (after .takeSettled (at_ .take ok .leader false wLive)).casc.downList = [.go 7 2]
      ∧ (after .takeSettled (at_ .take (fun a => { a with below := .notNeeded }) .follower true wLive)).casc.upList
          = [.ready 7 .ok]
      ∧ (after .rollbackSettled (at_ (.rollback 1) id .follower false wLive)).ckpt.ctrl
          = .agreeing (.rollback 1) .command
      ∧ (after .rollbackSettled (b .leader id)).casc.downList = [.abandon 7]
      ∧ (after .rollbackSettled (b .follower id)).casc.upList = [.ready 7 (.refuse .broken)]
      ∧ (after .rollbackSettled (b .follower fun a => { a with readySent := .refuse })).casc.upList = []
      ∧ (after .rollbackSettled (b .follower id)).casc.abandoned = some 7 := by decide +kernel
theorem test_witness_ReleaseFence :
    let s := ctl (.held .corrupt) wLive
    let l := agr .take (fun a => { a with go := true }) (rol .leader false s)
    (Listening s .answered ∧ ChannelsBusy s ∧ NoFlags s ∧ s.casc.agreement = none)
      ∧ (l.casc.role = .leader ∧ (l.casc.agreement.map Agreement.go) = some true)
      ∧ (after .releaseFence wLive).mgmt.response = some ⟨0x11, []⟩ := by decide +kernel

/-! ## Triggers, breaks -/

/-- A LINE flag servable; no log; a full stack, rolling or not; a leader. -/
theorem test_witness_TriggerTake :
    let s := (ents [ent .issuing] wLog).onCkpt fun c => { c with lineFlag := true, lineEnable := true }
    let full := s.onCkpt fun c =>
      { c with stack := List.replicate 8 ⟨1, 0, .live, 0, .command⟩, rolling := true }
    (inReset s = false ∧ AtRest s ∧ ChannelsBusy s ∧ s.casc.role ≠ .follower ∧ settled s = false
        ∧ s.log.configured = true ∧ s.ckpt.stack.length < 8)
      ∧ (8 ≤ full.ckpt.stack.length ∧ full.ckpt.rolling = true ∧ full.log.waitList = [])
      ∧ (after .triggerTakeStart full).ckpt.stack.length = 7
      ∧ (after .triggerTakeStart (s.onLog fun l => { l with configured := false })).mgmt.latches = 0x040
      ∧ (rol .leader false s).casc.downList.length < 4 := by decide +kernel
/-- A tracker already settled, at a solo unit and at a leader, and a leader's rolling release. -/
theorem test_witness_TriggerTake_settled :
    let s := wLog.onCkpt fun c => { c with lineFlag := true, lineEnable := true }
    let l := rol .leader false s
    let full := (ents [ent .issuing] l).onCkpt fun c =>
      { c with stack := List.replicate 8 ⟨1, 0, .live, 0, .command⟩, rolling := true }
    settled s = true ∧ AtRest l ∧ full.log.waitList = [] ∧ settled full = false
      ∧ (after .triggerTakeStart s).ckpt.stack.map CkptRecord.source = [.line]
      ∧ (after .triggerTakeStart l).ckpt.ctrl = .agreeing .take .line
      ∧ (after .triggerTakeStart full).ckpt.stack.length = 7
      ∧ (after .triggerTakeStart full).casc.downList = [.prepare 1 .take 0] := by decide +kernel
/-- An operation in progress at a solo unit; a follower whose UP list is empty, holds an ASK, and is full. -/
theorem test_witness_TriggerLatches :
    let on := fun s => State.onCkpt s fun c => { c with lineEnable := true, autoTake := true, interval := 1 }
    let s := on (ctl (.held .corrupt) wLive)
    let f := fun l => on ((rol .follower false wLive).onCasc fun c => { c with upList := l })
    let full := List.replicate 4 (Message.abandon 1)
    (inReset s = false ∧ s.casc.role ≠ .follower ∧ s.ckpt.ctrl ≠ .idle ∧ ChannelsBusy s
        ∧ s.ckpt.lineEnable = true ∧ s.ckpt.interval ≠ 0 ∧ wLive.ckpt.interval = 0)
      ∧ (after .ckptReqRise (on wLog)).ckpt.stack.map CkptRecord.source = [.line]
      ∧ (after .intervalExpiry (on wLog)).ckpt.stack.map CkptRecord.source = [.timer]
      ∧ (after .ckptReqRise (f [])).casc.upList = [.ask .line]
      ∧ (after .intervalExpiry (f [])).casc.upList = [.ask .timer]
      ∧ (after .intervalExpiry (f [])).ckpt.intervalCount = 1
      ∧ (after .intervalExpiry (f [.ask .line])).mgmt.counters.triggersMerged = 1
      ∧ (after .ckptReqRise (f full)).mgmt.latches = 0x200
      ∧ (after .ckptReqRise (f full)).ckpt.lineFlag = false := by decide +kernel
theorem test_witness_StallLimitExpiry :
    let s := (ents [ent .logWait] wLive).onLog fun l => { l with waitList := [0] }
    inReset s = false ∧ s.log.waitList ≠ [] ∧ s.log.stallLimit ≠ 0
      ∧ (∃ r ∈ s.ckpt.stack, r.state = .live) ∧ s.down.channel.isSome = true
      ∧ (after .stallLimitExpiry s).mgmt.counters.stallTime = 5 := by decide +kernel

/-! ## Upstream port and admission -/

/-- A live tag; lines at and below the memory size; the log's last line and the first above it; the
window's edges; a full queue. -/
theorem test_witness_RequestTaken :
    let s := wLog.onUp fun u => { u with liveTags := [1] }
    let take := fun (t : Fin 64) op l => (after (.requestTaken ⟨t, op, l⟩) s).up
    (inReset s = false ∧ s.up.offered = none ∧ s.up.channel.isSome = true)
      ∧ (take 1 .read 0).refusals.map RefusalItem.status = [.protocol]
      ∧ (take 2 .read (2 ^ 34)).refusals.map RefusalItem.status = [.range]
      ∧ (take 2 (.write 1 5) 31).refusals.map RefusalItem.status = [.guard]
      ∧ (take 2 (.write 1 5) 32).queue.map Accepted.cls = [.plain]
      ∧ (take 2 (.write 1 5) 100).queue.map Accepted.cls = [.guarded]
      ∧ (take 2 .read 109).queue.map Accepted.cls = [.guarded]
      ∧ (take 2 .read 110).queue.map Accepted.cls = [.plain]
      ∧ (after (.requestTaken ⟨2, .read, 0⟩) (s.onUp fun u =>
          { u with queue := List.replicate 16 wr })).up.offered = some ⟨2, .read, 0⟩ := by decide +kernel
/-- The port without the head. -/
def without (s : State) : Upstream := { s.up with queue := [] }
/-- A WRITE of an empty mask, a READ, and a request behind an entry in ISSUING; the fence raised. -/
theorem test_witness_Admission :
    let s := hd wr wLog
    let plain : Accepted := ⟨2, .read, 50, .plain, 1⟩
    let f := (hd plain wLog).onCkpt fun c => { c with fence := true }
    inReset s = false ∧ OffersToTracker s wr (without s) ∧ LowestFreeEntry 0 s ∧ s.up.offered = none
      ∧ ChannelsBusy s ∧ OffersToTracker f plain (without f)
      ∧ LowestFreeEntry 1 (ents [ent .issuing] s)
      ∧ (after .admission (ents [ent .issuing] s)).entries.map Entry.state = [.issuing, .blocked]
      ∧ (after .admission (hd { wr with op := .write 0 5 } wLog)).entries.map Entry.status = [some .ok] := by
  decide +kernel
/-- Broken, hit, the watermark reached, full under STALL, full under BREAK; and in SETTLING(ROLLBACK) a
BLOCKED write behind a request that ends, the log full and not full. -/
theorem test_witness_PreservationStep :
    let s := hd wr wLive
    let pos := fun (p : Policy) (a : Position) (s : State) =>
      s.onLog fun l => { l with allocated := a, policy := p }
    let st := fun s => (after .admission s).entries.map Entry.state
    let b := { ent .blocked with num := 1, seq := 1 }
    let r := tg (.host 0) wr.op (ctl (.settling (.rollback 1) .command) (ents [ent .issuing, b] wLive))
    let end_ := fun s => (after (.downstreamResponse 0 .write .ok 0) s).entries.map
      fun e => (e.state, e.status)
    (inReset s = false ∧ OffersToTracker s wr (without s) ∧ LowestFreeEntry 0 s ∧ s.up.offered = none
        ∧ ChannelsBusy s ∧ (∀ e ∈ s.entries, e.line = wr.line → e.state = .done))
      ∧ s.ckpt.ctrl = .idle ∧ s.ckpt.stack.getLast? = some ⟨1, 0, .live, 0, .command⟩
      ∧ st (markBroken s) = [.issuing]
      ∧ st (s.onFilter fun _ => [⟨0, 100, 1⟩]) = [.issuing]
      ∧ st (pos .stall 15 s) = [.capturing] ∧ st (pos .stall 16 s) = [.logWait]
      ∧ (after .admission (pos .stall 11 s)).mgmt.latches = 0x008
      ∧ (after .admission (pos .break 16 s)).mgmt.latches = 0x004
      ∧ (inReset r = false ∧ ChannelsBusy r ∧ r.casc.agreement = none ∧ entryAt 0 r = some (ent .issuing)
          ∧ entryAt 1 r = some b ∧ r.filter = [] ∧ r.ckpt.stack.getLast?.isSome = true
          ∧ tagState 0 r.down = some (.outstanding ⟨.host 0, wr.op, 100⟩ (some ⟨0, 2000⟩)))
      ∧ end_ (pos .stall 16 r) = [(.done, some .ok), (.done, some .fenced)]
      ∧ end_ (pos .break 16 r) = [(.done, some .ok), (.done, some .fenced)]
      ∧ end_ (pos .stall 15 r) = [(.done, some .ok), (.capturing, none)] := by decide +kernel
/-- A full log under STALL: a write joins the wait list ahead of a younger one, and behind one of its own
sequence, at admission and on release from BLOCKED; in SETTLING(TAKE) too. -/
theorem test_witness_PreservationStep_waiting :
    let full := fun (w : List (Fin 32)) (s : State) => s.onLog fun l => { l with allocated := 16, waitList := w }
    let e := fun (n : Fin 32) q => ({ ent .logWait with num := n, line := 101, seq := q } : Entry)
    let s := fun q => full [3] (ents [e 3 q] (hd wr wLive))
    let b := { ent .blocked with num := 1, seq := 4 }
    let r := fun k => full [2, 3] (tg (.host 0) wr.op (ctl k (ents [e 3 5, ent .issuing, b, e 2 4] wLive)))
    let end_ := fun k => (after (.downstreamResponse 0 .write .ok 0) (r k)).log.waitList
    (LowestFreeEntry 0 (s 1) ∧ (s 1).log.policy = .stall ∧ NoSendDue (r .idle))
      ∧ (after .admission (s 1)).log.waitList = [0, 3] ∧ (after .admission (s 0)).log.waitList = [3, 0]
      ∧ end_ .idle = [2, 1, 3] ∧ end_ (.settling .take .command) = [2, 1, 3] := by decide +kernel
/-- A PROTECTED head with 7 on the list, and with 8. -/
theorem test_witness_FenceDeferral :
    let s := fun n => ((hd wr wLog).onUp fun u => { u with fenceList := List.replicate n wr }).onCkpt
      fun c => { c with fence := true }
    inReset (s 7) = false ∧ (s 7).ckpt.fence = true ∧ (s 7).up.fenceList.length < 8
      ∧ (s 7).up.offered = none ∧ (s 7).up.channel.isSome = true
      ∧ (after .fenceDeferral (s 7)).up.fenceList.length = 8
      ∧ (after .fenceDeferral (s 8)).up.queue = [wr] := by decide +kernel
/-- Two items ready; the oldest offered; each taken. -/
theorem test_witness_Responses :
    let s := ((ents [{ ent .done with seq := 4 }] wLog).onUp fun u =>
      { u with channel := none, liveTags := [1, 2], refusals := [⟨2, .read, .range, 3⟩] })
    let t := after .responseOffer s
    let u := after .responseTaken t
    inReset s = false ∧ AtRest t ∧ t.up.offered = none ∧ t.down.channel.isSome = true
      ∧ t.up.channel = some 3 ∧ u.up.channel = some 4 ∧ u.up.liveTags = [1]
      ∧ (after .responseTaken u).entries = [] := by decide +kernel

/-- A response taken in SETTLING: a settle that stays open, one of a take still due, and one of a rollback
that its entry's end completes. -/
theorem test_witness_Responses_settle :
    let s := fun k l => ctl k (ents l (wLive.onUp fun u => { u with channel := some 0 }))
    let d := ent .done
    let i : Entry := { ent .issuing with num := 1, seq := 1 }
    let take := s (.settling .take .command) [d]
    let open_ := s (.settling .take .command) [d, i]
    let back := s (.settling (.rollback 1) .command) [d]
    (inReset open_ = false ∧ open_.up.offered = none ∧ NoSendDue open_ ∧ settled open_ = false)
      ∧ rollbackSettled back = false
      ∧ (after .responseTaken open_).ckpt.ctrl = .settling .take .command
      ∧ (after .responseTaken take).ckpt.stack.length = 2
      ∧ ((after .responseTaken back).mgmt.result.map OpResult.outcome) = some .done
      ∧ (after .responseTaken back).ckpt.ctrl = .idle := by decide +kernel

/-! ## The downstream port -/

/-- The turn kept, and passed; the last tag below the limit in use. -/
theorem test_witness_Grant :
    let s := State.reset.onDown fun d =>
      { d with hostReady := [⟨.host 0, .read, 5⟩], preserveReady := [⟨.capture 1, .read, 6⟩], limit := 1 }
    let spent := s.onDown fun d => { d with used := 8 }
    inReset s = false ∧ s.down.channel = none ∧ LowestFreeTag 0 s.down
      ∧ (readyList .host s.down ≠ [] ∧ s.down.used < weightOf .host s.down)
      ∧ ¬ spent.down.used < weightOf .host spent.down
      ∧ (after .grant spent).down.turn = .preserve
      ∧ tagState 0 (after .grant s).down = some (.outstanding ⟨.host 0, .read, 5⟩ none)
      ∧ (after .downstreamRequestTaken (after .grant s)).down.channel = none := by decide +kernel
/-- Ends by response, timeout and freed notice, a READ released behind; and the rows of R146. -/
theorem test_witness_HostEndsAndUnmatched :
    let b : Entry := { newEntry 1 ⟨2, .read, 100, .guarded, 1⟩ with state := .blocked }
    let s := tg (.host 0) .read (ents [{ ent .issuing with op := .read }] wLog)
    let q := qtg (.host 0) .read (ents [{ ent .issuing with hold := true }] wLog)
    let two := ents [ent .issuing, b] s
    let off := wLog.onDown fun d => { d with tags := [⟨0, .outstanding ⟨.host 0, .read, 100⟩ none⟩] }
    (inReset s = false ∧ AtRest s ∧ ChannelsBusy s ∧ (entryAt 0 s).isSome = true
        ∧ (∀ x ∈ s.entries, x.line = 100 → x.state ≠ .blocked)
        ∧ tagState 0 s.down = some (.outstanding ⟨.host 0, .read, 100⟩ (some ⟨0, 2000⟩)))
      ∧ tagState 0 q.down = some (.quarantined .read (.host 0))
      ∧ (entryAt b.num two = some b ∧ b.num ≠ 0 ∧ b.state = .blocked ∧ b.op = .read)
      ∧ (after (.downstreamResponse 0 .read .ok 9) two).entries.map Entry.state = [.done, .issuing]
      ∧ (after (.downstreamTimeout 0) s).entries.map Entry.hold = [true]
      ∧ tagState 1 s.down = none
      ∧ tagState 0 off.down = some (.outstanding ⟨.host 0, .read, 100⟩ none)
      ∧ (after (.downstreamResponse 0 .write .ok 0) s).mgmt.latches = 0x100
      ∧ (after (.downstreamResponse 0 .write .ok 0) q).mgmt.latches = 0x100 := by decide +kernel

/-- A response that ends the last unsettled entry of a take, and the freed notice of a PLAIN read that a
rollback waits for, end the settle in the same step. -/
theorem test_witness_HostEndsAndUnmatched_settle :
    let s := tg (.host 0) wr.op (ctl (.settling .take .command) (ents [ent .issuing] wLive))
    let p : Entry := { newEntry 0 ⟨1, .read, 100, .plain, 0⟩ with state := .issuing, hold := true }
    let q := qtg (.host 0) .read (ctl (.settling (.rollback 1) .command) (ents [p] wLive))
    (settled s = false ∧ rollbackSettled q = false ∧ inReset q = false ∧ ChannelsBusy q)
      ∧ (after (.downstreamResponse 0 .write .ok 0) s).ckpt.stack.length = 2
      ∧ (after (.downstreamResponse 0 .write .ok 0) s).ckpt.ctrl = .idle
      ∧ (after (.downstreamResponse 0 .read .ok 0) q).ckpt.ctrl = .idle
      ∧ ((after (.downstreamResponse 0 .read .ok 0) q).mgmt.result.map OpResult.outcome) = some .done := by
  decide +kernel

/-! ## Records -/

theorem test_witness_CaptureEnds :
    let e := { ent .capturing with ctx := some rctx }
    let s := tg (.capture 0) .read (ents [e] wLive)
    let q := qtg (.capture 0) .read (ents [{ e with state := .recording }] wLive)
    (inReset s = false ∧ AtRest s ∧ ChannelsBusy s ∧ entryAt 0 s = some e ∧ e.ctx = some rctx
        ∧ tagState 0 s.down = some (.outstanding ⟨.capture 0, .read, 100⟩ (some ⟨0, 2000⟩)))
      ∧ (tagState 0 q.down = some (.quarantined .read (.capture 0))
          ∧ (entryAt 0 q).map Entry.state = some .recording)
      ∧ (after (.downstreamResponse 0 .read .ok 9) s).down.preserveReady.map DownReq.line = [0, 1] := by
  decide +kernel
/-- A late response frees the capture's tag of an entry in COMMIT_WAIT that head has passed; and a capture
that ends while a take settles. -/
theorem test_witness_CaptureEnds_late :
    let c := { rctx with capture := .poisoned, captureQuarantined := true, header := .acknowledged, outcome := some .poisoned }
    let q := (qtg (.capture 0) .read (ents [{ ent .commitWait with ctx := some c }] wLive)).onLog fun l =>
      { l with head := 1, allocated := 1 }
    let s := tg (.capture 0) .read
      (ctl (.settling .take .command) (ents [{ ent .capturing with ctx := some rctx }] wLive))
    (inReset q = false ∧ ChannelsBusy q ∧ NoSendDue q
        ∧ tagState 0 q.down = some (.quarantined .read (.capture 0)))
      ∧ (after (.downstreamResponse 0 .read .ok 0) q).entries.map Entry.state = [.issuing]
      ∧ (after (.downstreamResponse 0 .read .ok 0) q).filter.map FilterWay.line = [100]
      ∧ (after (.downstreamResponse 0 .read .ok 9) s).ckpt.ctrl = .settling .take .command := by decide +kernel
/-- A PROTECTED write in RECORDING whose record has a context, a tag of the owner's request taken, and two
positions reserved from head. -/
def recd (o : Owner) (c : RecordCtx) : State :=
  (tg o (.write (BitVec.allOnes 64) 9) (ents [{ ent .recording with ctx := some c }] wLive)).onLog fun l =>
    { l with allocated := 2 }
/-- A context with the old data captured and its two writes in a state each. -/
def rwr (h d : WriteState) : RecordCtx := { rctx with capture := .captured 9, header := h, data := d }
/-- The state of the record's entry and its write states after a command. -/
def recOut (i : Instr) (s : State) : List (EntryState × Option (WriteState × WriteState × Nat)) :=
  (after i s).entries.map fun e => (e.state, e.ctx.map fun c => (c.header, c.data, c.quarantined))

/-- The data write acknowledged first; either write failing or timed out first, the other outstanding or
waiting; a later end; a freed notice of two. -/
theorem test_witness_RecordWrites :
    let ok : Instr := .downstreamResponse 0 .write .ok 0
    let bad : Instr := .downstreamResponse 0 .write .error 0
    let s := recd (.dataWrite 0) (rwr .outstanding .outstanding)
    let w := recd (.headerWrite 0) (rwr .outstanding .waiting)
    let dead := fun q => { rwr .failed .outstanding with failed := true, quarantined := q }
    let q2 := qtg (.headerWrite 0) .write (recd (.headerWrite 0) { rwr .failed .failed with failed := true, quarantined := 2 })
    (inReset s = false ∧ ChannelsBusy s ∧ s.casc.agreement = none ∧ s.log.waitList = []
        ∧ tagState 0 s.down = some (.outstanding ⟨.dataWrite 0, .write (BitVec.allOnes 64) 9, 100⟩ (some ⟨0, 2000⟩))
        ∧ (∃ r ∈ s.ckpt.stack, r.state = .live)
        ∧ tagState 0 q2.down = some (.quarantined .write (.headerWrite 0)))
      ∧ [recOut ok s, recOut bad s, recOut (.downstreamTimeout 0) w,
          recOut (.downstreamTimeout 0) (recd (.dataWrite 0) (dead 0)), recOut ok (recd (.dataWrite 0) (dead 1)),
          recOut ok q2].map (fun l => l.map fun x => x.2)
        = [[some (.outstanding, .acknowledged, 0)], [some (.outstanding, .failed, 0)],
          [some (.failed, .withdrawn, 1)], [some (.failed, .failed, 1)], [some (.failed, .acknowledged, 1)],
          [some (.failed, .failed, 1)]]
      ∧ [after bad s, after bad (markBroken s), after (.downstreamTimeout 0) w].map (fun s => s.mgmt.latches)
        = [0x004, 0, 0x104] := by decide +kernel
/-- Head, RECORDS_WRITTEN, the current record's count and the filter's lines after a command. -/
def headOut (i : Instr) (s : State) : Nat × Nat × List Nat × List Nat :=
  let t := after i s
  (t.log.head.toNat, t.mgmt.counters.recordsWritten.toNat, t.ckpt.stack.map CkptRecord.records,
    t.filter.map FilterWay.line)
/-- Both writes acknowledged, either last, at head and above it, with a FAILED position finished after; and
a poisoned record's one write. -/
theorem test_witness_RecordFinishes :
    let ok : Instr := .downstreamResponse 0 .write .ok 0
    let s := recd (.dataWrite 0) (rwr .acknowledged .outstanding)
    let p := recd (.headerWrite 0) { rctx with capture := .poisoned, header := .outstanding }
    let two := s.onLog fun l => { l with finished := [(1, .failed)] }
    let above := recd (.dataWrite 0) { rwr .acknowledged .outstanding with position := 1 }
    (inReset s = false ∧ ChannelsBusy s ∧ s.casc.agreement = none ∧ s.log.waitList = []
        ∧ s.log.finished = [] ∧ 1 < (s.log.allocated - s.log.head).toNat)
      ∧ [s, recd (.headerWrite 0) (rwr .outstanding .acknowledged), p, two, above].map (headOut ok)
        = [(1, 1, [1], [100]), (1, 1, [1], [100]), (1, 1, [1], [100]), (2, 1, [2], [100]), (0, 0, [0], [])]
      ∧ (recOut ok s ++ recOut ok above).map Prod.fst = [.issuing, .commitWait]
      ∧ (after ok above).log.finished = [(1, .written)] := by decide +kernel
/-- FAILED: a failure after an acknowledgement, a failure with the other write withdrawn, a later end of
either kind, and the last freed notice. -/
theorem test_witness_RecordFinishes_failed :
    let ok : Instr := .downstreamResponse 0 .write .ok 0
    let bad : Instr := .downstreamResponse 0 .write .error 0
    let s := recd (.dataWrite 0) (rwr .acknowledged .outstanding)
    let lost := recd (.dataWrite 0) { rwr .failed .outstanding with failed := true }
    let q1 := qtg (.headerWrite 0) .write
      (recd (.headerWrite 0) { rwr .failed .failed with failed := true, quarantined := 1 })
    (∃ r ∈ s.ckpt.stack, r.state = .live) ∧ (after bad s).mgmt.latches = 0x004
      ∧ [headOut bad s, headOut bad (recd (.headerWrite 0) (rwr .outstanding .waiting)), headOut ok lost,
          headOut bad lost, headOut ok q1] = List.replicate 5 (1, 0, [1], [])
      ∧ [recOut bad s, recOut bad lost, recOut ok q1] = List.replicate 3 [(.issuing, none)] := by
  decide +kernel
/-- A first failure that ends its record while no checkpoint is LIVE; and a head that stops at an unfinished
position, a later outcome kept. -/
theorem test_witness_RecordFinishes_stop :
    let ok : Instr := .downstreamResponse 0 .write .ok 0
    let bad : Instr := .downstreamResponse 0 .write .error 0
    let s := recd (.dataWrite 0) (rwr .acknowledged .outstanding)
    let gap := s.onLog fun l => { l with allocated := 4, finished := [(3, .written), (1, .failed)] }
    (∀ r ∈ (markBroken s).ckpt.stack, r.state = .broken)
      ∧ (after bad (markBroken s)).mgmt.latches = 0 ∧ headOut bad (markBroken s) = (1, 0, [1], [])
      ∧ (gap.log.finished.map Prod.fst).Nodup ∧ headOut ok gap = (2, 1, [2], [100])
      ∧ (after ok gap).log.finished = [(3, .written)] := by decide +kernel
/-- Each row of R49: the line named, an invalid way, a stale way, and the oldest displaced; a FAILED record,
a BROKEN checkpoint, and an entry that may not leave. -/
theorem test_witness_CommitWaitExit :
    let out := fun (o : RecOutcome) (f : List FilterWay) =>
      ((ents [{ ent .commitWait with ctx := some { rctx with outcome := some o } }] wLive).onLog fun l =>
        { l with head := 1, allocated := 1 }).onFilter fun _ => f
    let t := fun o f => after (.commitWaitExit 0) (out o f)
    let w := fun (i : Fin 4) (k : Nat) (g : BitVec 16) => (⟨i, 100 + 1024 * k, g⟩ : FilterWay)
    let above := recd (.dataWrite 0) (rwr .acknowledged .outstanding)
    (inReset (out .written []) = false ∧ ChannelsBusy (out .written []))
      ∧ (t .written []).filter = [w 0 0 1] ∧ (t .poisoned [w 0 1 1]).filter = [w 0 1 1, w 1 0 1]
      ∧ (t .written [w 2 0 0, w 0 1 1]).filter = [w 0 1 1, w 2 0 1]
      ∧ (t .written [w 0 1 1, w 3 2 0, w 1 3 0, w 2 4 1]).filter = [w 0 1 1, w 1 3 0, w 2 4 1, w 3 0 1]
      ∧ (t .written [w 3 1 1, w 0 2 1, w 1 3 1, w 2 4 1]).filter = [w 0 2 1, w 1 3 1, w 2 4 1, w 3 0 1]
      ∧ (t .written [w 3 1 1, w 0 2 1, w 1 3 1, w 2 4 1]).mgmt.counters.filterDisplacements = 1
      ∧ (t .failed []).filter = [] ∧ (t .failed []).entries.map Entry.state = [.issuing]
      ∧ (after (.commitWaitExit 0) (markBroken (out .written []))).filter = []
      ∧ (after (.commitWaitExit 0) above).entries.map Entry.state = [.recording] := by decide +kernel

/-! ## The walk -/

/-- A walk of checkpoint 1 at position p, its stage at the front. -/
def walking (p : Position) (o : Owner) (h : Option LineData) (op : LineOp) : State :=
  (tg o op (ctl (.restoring 1) wLive)).onRestore fun r =>
    { r with
      walk := some
        { target := 1, floor := 0, position := p, stage := .header, header := h, oldData := none
          applied := 0, stopped := false, quarantined := false } }

/-- A good header, a poisoned one, a corrupt one, and data that agrees or does not. -/
theorem test_witness_WalkReads :
    let good := assembleHeader 1 3 100 (some 9)
    let s := walking 3 .walkHeader none .read
    let d := walking 3 .walkData (some good) .read
    (inReset s = false ∧ s.casc.role = .solo ∧ s.casc.agreement = none ∧ ChannelsBusy s ∧ NoFlags s
        ∧ (∃ r ∈ s.ckpt.stack, r.state = .live) ∧ s.log.waitList = [])
      ∧ headerCorrupt good 3 s.cls = false ∧ headerFlags good = 0 ∧ headerCorrupt good 4 s.cls = true
      ∧ headerFlags (assembleHeader 1 3 100 none) = 1
      ∧ (after (.downstreamResponse 0 .read .ok (assembleHeader 1 3 100 none)) s).restore.unrestored = [100]
      ∧ (after (.downstreamResponse 0 .read .ok 0) s).ckpt.ctrl = .held .corrupt
      ∧ (after (.downstreamResponse 0 .read .ok 9) d).down.restoreReady.map DownReq.line = [100]
      ∧ (after (.downstreamResponse 0 .read .ok 8) d).mgmt.latches = 0x006 := by decide +kernel
/-- Above the floor, at the floor, and freed from DRAIN. -/
theorem test_witness_WalkWrites :
    let h := assembleHeader 1 3 100 (some 9)
    let op : LineOp := .write (BitVec.allOnes 64) 9
    let s := fun p => walking p .walkWrite (some h) op
    let q := (qtg .walkWrite .write (s 3)).onRestore fun r =>
      { r with walk := r.walk.map fun w => { w with stage := .drain, quarantined := true } }
    (inReset (s 3) = false ∧ ChannelsBusy (s 3) ∧ NoFlags (s 3) ∧ (findCkpt 1 (s 0)).isSome = true
        ∧ tagState 0 q.down = some (.quarantined .write .walkWrite))
      ∧ ((after (.downstreamResponse 0 .write .ok 0) (s 3)).restore.walk.map Walk.position) = some 2
      ∧ (after (.downstreamResponse 0 .write .error 0) (s 3)).restore.unrestored = [headerAddr h]
      ∧ (after (.downstreamResponse 0 .write .ok 0) (s 0)).ckpt.ctrl = .idle
      ∧ ((after (.downstreamResponse 0 .write .ok 0) q).restore.walk.map Walk.position) = some 2 := by
  decide +kernel
/-- A walk at its floor that ends DONE, PARTIAL three ways and CORRUPT three ways, at a solo unit, at a
follower and at a leader. -/
theorem test_witness_WalkEnds :
    let h := assembleHeader 1 0 100 (some 9)
    let p := assembleHeader 1 0 100 none
    let write := walking 0 .walkWrite (some h) (.write (BitVec.allOnes 64) 9)
    let read := walking 0 .walkHeader none .read
    let drain := fun o k b => (qtg o k write).onRestore fun r =>
      { r with walk := r.walk.map fun w => { w with stage := .drain, stopped := b }, unrestored := [5] }
    let ok : Instr := .downstreamResponse 0 .write .ok 0
    let out := fun i s => (after i s).mgmt.result.map fun r => (r.outcome, r.applied, r.unrestored)
    let chain := fun r last f => agr (.rollback 1) (fun a => f { a with go := true }) (rol r last write)
    (inReset write = false ∧ write.ckpt.ctrl = .restoring 1
        ∧ (findCkpt 1 write).map CkptRecord.state = some .live ∧ write.log.waitList = []
        ∧ ChannelsBusy write ∧ NoFlags write ∧ headerCorrupt p 0 read.cls = false ∧ headerFlags p = 1)
      ∧ out ok write = some (.done, 1, 0)
      ∧ out (.downstreamResponse 0 .write .error 0) write = some (.partly, 0, 1)
      ∧ out (.downstreamResponse 0 .read .ok p) read = some (.partly, 0, 1)
      ∧ out ok (drain .walkWrite .write false) = some (.partly, 0, 1)
      ∧ out (.downstreamResponse 0 .read .error 0) read = some (.corrupt, 0, 0)
      ∧ out (.downstreamResponse 0 .read .ok 0) (drain .walkData .read true) = some (.corrupt, 0, 1)
      ∧ (after (.downstreamResponse 0 .read .error 0) read).ckpt.ctrl = .held .corrupt
      ∧ (after ok (chain .follower true id)).casc.upList = [.done 7 .done]
      ∧ (after ok (chain .follower false id)).casc.upList = []
      ∧ (after ok (chain .follower false fun a => { a with belowDone := some .failed })).casc.upList
          = [.done 7 .failed]
      ∧ ((after ok (chain .leader false id)).casc.agreement.bind Agreement.own) = some .done
      ∧ out ok (chain .leader false fun a => { a with belowDone := some .partly }) = some (.partly, 1, 0) := by
  decide +kernel

/-! ## The cascade link -/

theorem test_witness_LinkMessages :
    let l := rol .leader false wLive
    let f := rol .follower false wLive
    let b := ctl (.settling .take .command) l
    inReset l = false ∧ decodeMessage [1, 2, 3] = none
      ∧ (b.casc.role = .leader ∧ b.ckpt.ctrl ≠ .idle ∧ ChannelsBusy b)
      ∧ (after (.badMessage .down []) l).casc.badCount = 1
      ∧ (after (.prepareReceived .down 1 .take 0) f).mgmt.latches = 0x200
      ∧ (after (.askReceived .up .line) f).mgmt.latches = 0x200
      ∧ (after (.askReceived .down .timer) f).casc.upList = [.ask .timer]
      ∧ (after (.messageSent .up) (after (.askReceived .down .timer) f)).casc.upList = []
      ∧ (after (.askReceived .down .line) (f.onCasc fun c =>
          { c with upList := List.replicate 4 (.abandon 1) })).mgmt.latches = 0x200
      ∧ (after (.askReceived .down .line) b).ckpt.cascadeFlag = true
      ∧ (after (.askReceived .down .line) l).ckpt.ctrl = .agreeing .take .cascade := by decide +kernel
/-- Each reason of a refusal, and a take and a rollback accepted, held back by the tracker and settled at
once, at the last of the chain and above it. -/
theorem test_witness_Prepare :
    let f := ents [ent .issuing] (rol .follower true wLive)
    let q := fun last s => ctl (.held .corrupt) (rol .follower last s)
    let up := fun k n s => (after (.prepareReceived .up 3 k n) s).casc.upList
    (inReset f = false ∧ f.casc.upList.length < 4 ∧ f.casc.downList.length < 4 ∧ ChannelsBusy f
        ∧ settled f = false ∧ rollbackSettled f = false ∧ f.log.waitList = [] ∧ rollbackSettled wLive = true)
      ∧ up .take 0 (agr .take id f) = [.ready 3 (.refuse .state)]
      ∧ up .take 0 (f.onLog fun l => { l with configured := false }) = [.ready 3 (.refuse .state)]
      ∧ up .take 0 (f.onCkpt fun c => { c with stack := List.replicate 8 ⟨1, 0, .live, 0, .line⟩ })
          = [.ready 3 (.refuse .stackFull)]
      ∧ up .rollback 9 f = [.ready 3 (.refuse .notFound)]
      ∧ up .rollback 1 (markBroken f) = [.ready 3 (.refuse .broken)]
      ∧ (after (.prepareReceived .up 3 .take 0) f).ckpt.ctrl = .settling .take .cascade
      ∧ (after (.prepareReceived .up 3 .rollback 1) f).ckpt.fence = true
      ∧ up .rollback 1 (q true wLive) = [.ready 3 .ok] ∧ up .rollback 1 (q false wLive) = []
      ∧ (after (.prepareReceived .up 3 .rollback 1) (q false wLive)).ckpt.ctrl
          = .agreeing (.rollback 1) .cascade
      ∧ (after (.prepareReceived .up 3 .take 0) (rol .follower true wLive)).ckpt.ctrl
          = .agreeing .take .cascade := by decide +kernel
/-- Before the local settle, in SETTLING, and after it, in AGREEING; a READY of another id, one too many,
and one after GO. -/
theorem test_witness_LeaderReady :
    let l := rol .leader false (ents [ent .issuing] wLive)
    let a := fun f => ctl (.settling .take .command) (agr .take f l)
    let z := fun f => ctl (.agreeing .take .command) (agr .take (fun a => f { a with settled := true }) l)
    let hear := fun i s => after (.readyReceived .down i .ok) s
    let ok := fun (a : Agreement) => { a with below := .ok, timer := none }
    (inReset l = false ∧ ChannelsBusy l ∧ NoFlags l ∧ AtRest l ∧ l.casc.opId ≠ 9)
      ∧ ((a id).casc.agreement.map fun x => (x.id, x.below, x.go, x.settled)) = some (7, .awaited, false, false)
      ∧ settled (a id) = false ∧ rollbackSettled (a id) = false
      ∧ (a id).casc.downList.length < 4 ∧ ((a id).casc.agreement.bind Agreement.timer).isSome = true
      ∧ ((hear 7 (a id)).casc.agreement.map fun x => (x.below, x.timer)) = some (.ok, none)
      ∧ (hear 7 (z id)).casc.downList = [.go 7 2]
      ∧ (hear 7 (a ok)).mgmt.latches = 0x200 ∧ (hear 8 (a id)).mgmt.latches = 0x200
      ∧ (hear 8 (z id)).mgmt.latches = 0x200
      ∧ (hear 7 (z fun a => { ok a with go := true })).mgmt.latches = 0x200
      ∧ (after (.readyReceived .down 7 (.refuse .broken)) (a id)).casc.downList = [.abandon 7]
      ∧ ((after .agreementTimeout (a id)).mgmt.result.map OpResult.outcome) = some .timeout := by decide +kernel
/-- Before the settle and after it, READY not yet sent and sent; a second READY from below. -/
theorem test_witness_FollowerReadyAbandon :
    let f := rol .follower false (ents [ent .issuing] wLive)
    let a := ctl (.settling .take .cascade) (agr .take id f)
    let z := fun g => ctl (.agreeing .take .cascade) (agr .take (fun a => g { a with settled := true }) f)
    let hear := fun v s => after (.readyReceived .down 7 v) s
    (inReset f = false ∧ ChannelsBusy f ∧ AtRest f ∧ f.casc.upList.length < 4 ∧ f.casc.downList.length < 4)
      ∧ (a.casc.agreement.map fun x => (x.id, x.below, x.go, x.settled)) = some (7, .awaited, false, false)
      ∧ settled a = false ∧ rollbackSettled a = false
      ∧ (hear (.refuse .broken) a).casc.upList = [.ready 7 (.refuse .broken)]
      ∧ (hear .ok a).casc.upList = [] ∧ (hear .ok (z id)).casc.upList = [.ready 7 .ok]
      ∧ (hear .ok (z fun a => { a with below := .refused, readySent := .refuse })).mgmt.latches = 0x200
      ∧ (after (.abandonReceived .up 7) a).casc.abandoned = some 7
      ∧ ((after .holdTimeout a).mgmt.result.map OpResult.outcome) = some .timeout := by decide +kernel
/-- After GO: a READY and an ABANDON of the record's id, of the abandoned id and of another. -/
theorem test_witness_FollowerReadyAbandon_afterGo :
    let g := setAbandoned 3 (agr .take (fun a => { a with settled := true, readySent := .ok, go := true
                                                          own := some .done, timer := none })
      (rol .follower false wLive))
    let hear := fun i => after (.readyReceived .down i .ok) g
    let leave := fun i => after (.abandonReceived .up i) g
    (inReset g = false ∧ ChannelsBusy g ∧ g.ckpt.ctrl = .idle ∧ (g.casc.agreement.bind Agreement.belowDone) = none)
      ∧ [hear 7, hear 3, hear 9, leave 7, leave 3, leave 9].map (fun s => s.mgmt.latches)
          = [0x200, 0, 0x200, 0x200, 0, 0]
      ∧ [leave 7, leave 3, leave 9].map (fun s => s.casc.downList) = [[], [.abandon 3], [.abandon 9]]
      ∧ after .holdTimeout g = g := by decide +kernel
/-- A take applied, a take failed on a full stack and on a number held, a walk begun, a stray GO. -/
theorem test_witness_FollowerGo :
    let f := rol .follower false wLive
    let a := fun g => ctl (.agreeing g .cascade)
      (agr g (fun a => { a with settled := true, below := .ok, readySent := .ok }) f)
    let full := (a .take).onCkpt fun c => { c with stack := List.replicate 8 ⟨5, 0, .live, 0, .line⟩ }
    let deep := (a (.rollback 1)).onLog fun l => { l with head := 3, allocated := 3 }
    (inReset f = false ∧ ChannelsBusy f ∧ f.casc.upList.length < 4 ∧ f.casc.downList.length < 4
        ∧ f.casc.agreement = none)
      ∧ (after (.goReceived .up 7 2) f).casc.upList = [.done 7 .failed]
      ∧ (after (.goReceived .up 7 2) (a .take)).ckpt.stack.length = 2
      ∧ (after (.goReceived .up 7 1) (a .take)).ckpt.nextNumber = 2
      ∧ (after (.goReceived .up 7 65535) full).ckpt.nextNumber = 1
      ∧ (after (.goReceived .up 7 1) deep).ckpt.ctrl = .restoring 1 := by decide +kernel
/-- A full stack in rolling mode, the number new and held; and a rollback whose range is empty, at a middle
unit and at the last. -/
theorem test_witness_FollowerGo_rolling :
    let f := fun g last => ctl (.agreeing g .cascade)
      (agr g (fun a => { a with settled := true, below := .ok, readySent := .ok }) (rol .follower last wLive))
    let st := (List.range 8).map fun n => (⟨BitVec.ofNat 16 (n + 1), 0, .live, 0, .line⟩ : CkptRecord)
    let roll := (f .take false).onCkpt fun c => { c with stack := st, rolling := true }
    let go := fun n s => after (.goReceived .up 7 n) s
    (roll.log.waitList = [] ∧ 8 ≤ roll.ckpt.stack.length ∧ roll.ckpt.rolling = true)
      ∧ (go 1 roll).ckpt.stack.map CkptRecord.number = [2, 3, 4, 5, 6, 7, 8, 1]
      ∧ (go 5 roll).ckpt.stack.map CkptRecord.number = [2, 3, 4, 5, 6, 7, 8]
      ∧ ((go 5 roll).mgmt.result.map OpResult.outcome) = some .refused
      ∧ (go 1 (f (.rollback 1) false)).ckpt.ctrl = .idle
      ∧ ((go 1 (f (.rollback 1) false)).casc.agreement.bind Agreement.own) = some .done
      ∧ (go 1 (f (.rollback 1) true)).casc.upList = [.done 7 .done] := by decide +kernel
theorem test_witness_DonePassedUp :
    let l := rol .leader false wLive
    let f := rol .follower false wLive
    let ag := fun (g : Goal) (o : Option DoneOutcome) =>
      agr g fun a => { a with settled := true, go := true, own := o }
    (inReset l = false ∧ ChannelsBusy l ∧ NoFlags l ∧ l.casc.upList.length < 4 ∧ l.ckpt.ctrl = .idle)
      ∧ ((after (.doneReceived .down 7 .failed) (ag .take (some .done) l)).mgmt.result.map OpResult.outcome)
          = some .split
      ∧ (after (.doneReceived .down 7 .partly) (ag .take (some .done) l)).mgmt.latches = 0x201
      ∧ ((after (.doneReceived .down 7 .done) (ag (.rollback 1) none l)).casc.agreement.bind
          Agreement.belowDone) = some .done
      ∧ (after (.doneReceived .down 7 .partly) (ag (.rollback 1) (some .done) f)).casc.upList
          = [.done 7 .partly]
      ∧ (after .doneSend (ag .take (some .done) (rol .follower true wLive))).casc.upList = [.done 7 .done]
      ∧ (after (.doneReceived .down 9 .done) l).mgmt.latches = 0x200 := by decide +kernel
/-- At a middle follower: a take's DONE, FAILED, PARTIAL and CORRUPT; a DONE before GO, a second one, one
of the abandoned id and one of another. -/
theorem test_witness_DonePassedUp_follower :
    let f := rol .follower false wLive
    let a := fun f' => setAbandoned 3 (agr .take (fun a => f' { a with settled := true, readySent := .ok }) f)
    let z := a fun a => { a with go := true, own := some .done }
    let two := a fun a => { a with go := true, belowDone := some .done }
    let got := fun i o s => after (.doneReceived .down i o) s
    z.ckpt.ctrl = .idle ∧ NoFlags z
      ∧ [DoneOutcome.done, .failed, .partly, .corrupt].map (fun o => ((got 7 o z).casc.upList, (got 7 o z).mgmt.latches))
          = [([.done 7 .done], 0), ([.done 7 .failed], 0), ([.done 7 .failed], 0x200), ([.done 7 .failed], 0x200)]
      ∧ (got 7 .done (a id)).mgmt.latches = 0x200 ∧ (got 7 .done two).mgmt.latches = 0x200
      ∧ (got 3 .done two).casc.upList = [.done 3 .failed] ∧ (got 9 .done two).mgmt.latches = 0x200 := by
  decide +kernel
theorem test_witness_GoAndReadySends :
    let l := rol .leader false wLive
    let f := rol .follower true wLive
    let ag := fun (g : Goal) (b : BelowReady) => agr g fun a => { a with settled := true, below := b }
    (inReset l = false ∧ ChannelsBusy l ∧ l.casc.agreement = none ∧ l.casc.downList.length < 4)
      ∧ (after .leaderGo (ag .take .ok l)).casc.downList = [.go 7 2]
      ∧ (after .leaderGo (ag .take .awaited l)).casc.downList = []
      ∧ ((after .leaderGo (ag (.rollback 1) .ok l)).casc.agreement.bind Agreement.own) = some .done
      ∧ (after .leaderGo (ag (.rollback 1) .ok l)).ckpt.ctrl = .idle
      ∧ (after .leaderGo ((ag (.rollback 1) .ok l).onLog fun l => { l with head := 3, allocated := 3 })).ckpt.ctrl
          = .restoring 1
      ∧ (after .readyOkSend (ag .take .notNeeded f)).casc.upList = [.ready 7 .ok] := by decide +kernel
/-- A send list of four whose ASK is not the message on the line, and one whose only ASK is. -/
def fullLists (l : List Message) (s : State) : State := s.onCasc fun c => { c with upList := l, downList := l }
/-- A message takes the ASK's place, and is lost. -/
def sentOrLost (side : Side) (i : Instr) (m : Message) (s : State) : Bool :=
  let l := fun a b : Message => [a, b, .abandon 9, .abandon 8]
  let t := fun x => after i (fullLists x s)
  let room := after i (fullLists [] s)
  sendList side (t (l (.abandon 3) (.ask .line))).casc = [.abandon 3, .abandon 9, .abandon 8, m]
    && sendList side (t (l (.ask .line) (.abandon 3))).casc = l (.ask .line) (.abandon 3)
    && (t (l (.ask .line) (.abandon 3))).mgmt.latches = room.mgmt.latches ||| 0x200
    && fullLists [] (t (l (.abandon 3) (.ask .line))) = (fullLists [] room).onMgmt fun g =>
      { g with latches := (t (l (.abandon 3) (.ask .line))).mgmt.latches }
/-- Each message but ASK at each role that sends it, on a full list. -/
theorem test_witness_FullSendLists :
    let l := rol .leader false wLive
    let f := rol .follower false wLive
    let set := fun (g : Agreement → Agreement) => agr .take fun a => g { a with settled := true }
    let z := fun g => ctl (.agreeing .take .cascade) (set g f)
    let go := fun (o : Option DoneOutcome) (a : Agreement) => { a with go := true, own := o }
    let prep : Instr := .prepareReceived .up 3 .take 0
    (inReset f = false ∧ ChannelsBusy f ∧ NoFlags f ∧ f.log.waitList = [] ∧ checkTake l = none
        ∧ checkRollback 1 l = none ∧ Listening l .answered ∧ prepareRefusal .take 0 f = none)
      ∧ sentOrLost .up prep (.ready 3 (.refuse .state)) (set id f) = true
      ∧ sentOrLost .up prep (.ready 3 (.refuse .state)) (ctl (.held .corrupt) f) = true
      ∧ sentOrLost .up (.readyReceived .down 7 (.refuse .broken)) (.ready 7 (.refuse .broken)) (set id f) = true
      ∧ sentOrLost .up .readyOkSend (.ready 7 .ok) (set (fun a => { a with below := .ok }) f) = true
      ∧ sentOrLost .up .doneSend (.done 7 .failed)
          (set (fun a => { go (some .done) a with belowDone := some .failed }) f) = true
      ∧ sentOrLost .up (.doneReceived .down 7 .done) (.done 7 .failed) (setAbandoned 7 f) = true
      ∧ sentOrLost .up (.goReceived .up 7 1) (.done 7 .failed) f = true
      ∧ sentOrLost .down (.goReceived .up 7 1) (.abandon 7) f = true
      ∧ sentOrLost .down (.abandonReceived .up 7) (.abandon 7) f = true
      ∧ sentOrLost .down (.abandonReceived .up 7) (.abandon 7) (z id) = true
      ∧ sentOrLost .down (.goReceived .up 7 2) (.go 7 2) (z fun a => { a with readySent := .ok }) = true
      ∧ sentOrLost .down prep (.prepare 3 .take 0) f = true
      ∧ sentOrLost .down .agreementTimeout (.abandon 7) (set id l) = true
      ∧ sentOrLost .down (.readyReceived .down 7 (.refuse .broken)) (.abandon 7) (set id l) = true
      ∧ sentOrLost .down .leaderGo (.go 7 2) (set (fun a => { a with below := .ok }) l) = true
      ∧ sentOrLost .down .take (.prepare 1 .take 0) l = true
      ∧ sentOrLost .down (.rollback 1) (.prepare 1 .rollback 1) l = true := by decide +kernel

end Sys2Proof.Tests
end

section
/-! The management port: what the plain reads, the clears and the alert commands answer (R182, R194 to
R200). -/

namespace Sys2Proof.Machine

/-! ## Bytes of the payloads -/

/-- A byte as a field of one byte. -/
theorem be_one_toNat (b : Byte) : be 1 b.toNat = [b] := by
  simp [be]

theorem bytes32_eq_be (x : BitVec 32) : bytes32 x = be 4 x.toNat := rfl

theorem be_one_kindCode (k : OpKind) : be 1 (kindCode k) = [if k = .take then 1 else 2] := by
  cases k <;> rfl

theorem be_one_ckptStateCode (c : CkptState) :
    be 1 (ckptStateCode c) = [if c = .live then 1 else 2] := by
  cases c <;> rfl

theorem be_one_sourceCode (src : Source) :
    be 1 (sourceCode src) = [match src with | .command => 1 | .line => 2 | .timer => 3 | .cascade => 4] := by
  cases src <;> rfl

theorem be_one_outcomeCode (o : ResultOutcome) :
    be 1 (outcomeCode o) = [match o with
      | .done => 1 | .partly => 2 | .corrupt => 3 | .refused => 4 | .timeout => 5
      | .split => 6 | .interrupted => 7 | .missed => 8] := by
  cases o <;> rfl

/-- The presence byte of a result record: bit 0 for the number, bit 1 for the cascade id (R221). -/
theorem be_one_presence (number cascade : Bool) :
    be 1 (bit number + 2 * bit cascade)
      = [(if number then 1 else 0) + (if cascade then 2 else 0)] := by
  cases number <;> cases cascade <;> rfl

/-- An absent cascade id is sent as 0. -/
theorem be_one_cascadeId (id : Option OpId) : be 1 ((id.map BitVec.toNat).getD 0) = [id.getD 0] := by
  cases id with
  | none => rfl
  | some b => exact be_one_toNat b

/-! ## What a frame that is listened for gives -/

section
variable {s : State} {d : Decoder}

/-- The request phase is one way to listen; its frame leaves the decoder answered. -/
theorem listening_of_inRequest (h : InRequest s) : Listening s .answered := ⟨h.1, .inl ⟨h.2, rfl⟩⟩

/-- A frame answers what its command gives in the present state. -/
theorem onFrame_gives {run : State → Answer} {a : Answer} (h : Listening s d) (ha : run s = a)
    (hw : a.state.mgmt.warmPending = s.mgmt.warmPending) :
    onFrame s run = .next (answered d a.status a.payload a.state) := by
  subst ha
  exact onFrame_listening h hw

theorem execIdentify_ok (h : Listening s d) :
    execIdentify s = .next (answered d stOk identifyPayload s) := onFrame_listening h rfl

theorem execReadCheckpoints_ok (h : Listening s d) :
    execReadCheckpoints s = .next (answered d stOk (checkpointsPayload s) s) := onFrame_listening h rfl

theorem execReadResult_ok (h : Listening s d) :
    execReadResult s = .next (answered d stOk (resultPayload s.mgmt.result) s) := onFrame_listening h rfl

theorem execReadCounters_ok (h : Listening s d) :
    execReadCounters s = .next (answered d stOk (countersPayload s.mgmt.counters) s) :=
  onFrame_listening h rfl

end

/-- Settles O16: each payload of the model, field by field, is the list of bytes the rules give. -/
theorem plainReads : Obligations.PlainReads := by
  refine ⟨fun s h => execIdentify_ok (listening_of_inRequest h), fun s h => ?_⟩
  have listening := listening_of_inRequest h
  refine ⟨?checkpoints, fun none_recorded => ?noResult, fun r recorded => ?result, ?counters⟩
  case checkpoints =>
    refine (execReadCheckpoints_ok listening).trans ?_
    rw [checkpointsPayload]
    congr 3
    refine congrArg (List.flatMap · s.ckpt.stack) (funext fun r => ?_)
    simp only [recordItem, be_one_ckptStateCode, be_one_sourceCode] <;> rfl
  case noResult => exact (execReadResult_ok listening).trans (by rw [none_recorded, resultPayload])
  case result =>
    refine (execReadResult_ok listening).trans ?_
    simp only [recorded, resultPayload, be_one_kindCode, be_one_sourceCode, be_one_outcomeCode,
      be_one_presence, be_one_cascadeId] <;> rfl
  case counters =>
    refine (execReadCounters_ok listening).trans ?_
    simp only [countersPayload, bytes32_eq_be]
    rfl

/-! ## READ_UNRESTORED and CLEAR_COUNTERS -/

section
variable {s : State} {d : Decoder} {option : Option Byte}

theorem isRestoring_iff : isRestoring s = true ↔ ∃ k, s.ckpt.ctrl = .restoring k := by
  unfold isRestoring
  split <;> simp_all

/-- No option byte is the option 0: the list is kept. -/
theorem execReadUnrestored_keep (h : Listening s d) (ho : option = none ∨ option = some 0) :
    execReadUnrestored option s = .next (answered d stOk (unrestoredPayload s) s) :=
  onFrame_gives (a := ⟨stOk, unrestoredPayload s, s⟩) h (by rcases ho with rfl | rfl <;> rfl) rfl

theorem execReadUnrestored_clear (h : Listening s d) (hr : isRestoring s = false) :
    execReadUnrestored (some 1) s
      = .next (answered d stOk (unrestoredPayload s) (clearUnrestored s)) :=
  onFrame_gives (a := ⟨stOk, unrestoredPayload s, clearUnrestored s⟩) h (by simp [isSwitch, hr]) rfl

theorem execReadUnrestored_restoring (h : Listening s d) (hr : isRestoring s = true) :
    execReadUnrestored (some 1) s = .next (answered d stState [] s) :=
  onFrame_gives (a := refuse stState s) h (by simp [isSwitch, hr]) rfl

theorem isSwitch_eq_false {b : Byte} (hb : 1 < b.toNat) : isSwitch b = false := by
  have h0 : b ≠ 0 := by bv_omega
  have h1 : b ≠ 1 := by bv_omega
  simp_all [isSwitch]

theorem execReadUnrestored_outOfRange {b : Byte} (h : Listening s d) (hb : 1 < b.toNat) :
    execReadUnrestored (some b) s = .next (answered d stRange [] s) :=
  onFrame_gives (a := refuse stRange s) h (by simp [isSwitch_eq_false hb]) rfl

theorem execClearCounters_ok (h : Listening s d) :
    execClearCounters s
      = .next (answered d stOk []
          ((onCounters (fun _ => Counters.zero) s).onCasc fun c => { c with badCount := 0 })) :=
  onFrame_listening h rfl

end

/-- Settles O18: by the option byte and, for 1, by whether the controller is in RESTORING. -/
theorem readUnrestoredClearCounters : Obligations.ReadUnrestoredClearCounters := by
  refine ⟨fun s o h => ?_, fun s h => execClearCounters_ok (listening_of_inRequest h)⟩
  have listening := listening_of_inRequest h
  refine ⟨?keep, ?clear, ?restoring, ?range⟩
  case keep => exact execReadUnrestored_keep listening
  case clear =>
    rintro rfl elsewhere
    have hr : isRestoring s = false := by simpa [← isRestoring_iff] using not_exists.mpr elsewhere
    exact execReadUnrestored_clear listening hr
  case restoring =>
    rintro rfl restoring
    exact execReadUnrestored_restoring listening (isRestoring_iff.mpr restoring)
  case range =>
    rintro b rfl hb
    exact execReadUnrestored_outOfRange listening hb

/-! ## The alert commands and ALERT_N -/

section
variable {s : State} {d : Decoder} {causes : BitVec 16}

/-- The ten causes are the low ten bits: the command's test of the six bits above them is that none is
named there (R203). -/
theorem unusedCauses_eq_zero_iff :
    causes.extractLsb' 10 6 = 0 ↔ ∀ i, 10 ≤ i → causes.getLsbD i = false := by
  constructor
  · intro h i hi
    by_cases hlt : i < 16
    · have bit : (causes.extractLsb' 10 6).getLsbD (i - 10) = false := by simp [h]
      rw [BitVec.getLsbD_extractLsb', Nat.add_sub_cancel' hi] at bit
      simpa [show i - 10 < 6 by omega] using bit
    · exact BitVec.getLsbD_of_ge _ _ (by omega)
  · intro h
    refine BitVec.eq_of_getLsbD_eq fun j _ => ?_
    simp [BitVec.getLsbD_extractLsb', h (10 + j) (by omega)]

/-- Bit by bit, the ten causes a command names. -/
theorem getLsbD_namedCauses {i : Nat} (hi : i < 10) :
    (causes.extractLsb' 0 10).getLsbD i = causes.getLsbD i := by
  simp [hi]

/-- ALERT_N is asserted, outside PORST_N, exactly while a cause is latched and not masked (R207). -/
theorem alertAsserted_iff (h : s.pins.porstLow = false) :
    alertAsserted s = true
      ↔ ∃ i < 10, s.mgmt.latches.getLsbD i = true ∧ s.mgmt.mask.getLsbD i = false := by
  have exposed : ∀ i < 10, (s.mgmt.latches &&& ~~~ s.mgmt.mask).getLsbD i = true
      ↔ s.mgmt.latches.getLsbD i = true ∧ s.mgmt.mask.getLsbD i = false := fun i hi => by
    simp [hi]
  calc alertAsserted s = true
      ↔ ¬ s.mgmt.latches &&& ~~~ s.mgmt.mask = 0 := by simp [alertAsserted, h]
    _ ↔ ∃ i < 10, (s.mgmt.latches &&& ~~~ s.mgmt.mask).getLsbD i = true := by
      simp [BitVec.eq_of_getLsbD_eq_iff]
    _ ↔ ∃ i < 10, s.mgmt.latches.getLsbD i = true ∧ s.mgmt.mask.getLsbD i = false :=
      exists_congr fun i => and_congr_right (exposed i)

theorem porstLow_of_not_inReset (h : inReset s = false) : s.pins.porstLow = false := by
  simp only [inReset, Bool.or_eq_false_iff] at h
  obtain ⟨⟨powered, _⟩, _⟩ := h
  exact powered

theorem execSetAlertMask_outOfRange (h : Listening s d) (hc : causes.extractLsb' 10 6 ≠ 0) :
    execSetAlertMask causes s = .next (answered d stRange [] s) :=
  onFrame_gives (a := refuse stRange s) h (if_neg hc) rfl

theorem execClearAlerts_outOfRange (h : Listening s d) (hc : causes.extractLsb' 10 6 ≠ 0) :
    execClearAlerts causes s = .next (answered d stRange [] s) :=
  onFrame_gives (a := refuse stRange s) h (if_neg hc) rfl

theorem execSetAlertMask_inRange (h : Listening s d) (hc : causes.extractLsb' 10 6 = 0) :
    execSetAlertMask causes s
      = .next (answered d stOk [] (s.onMgmt fun m => { m with mask := causes.extractLsb' 0 10 })) :=
  onFrame_gives (a := done _) h (if_pos hc) rfl

theorem execClearAlerts_inRange (h : Listening s d) (hc : causes.extractLsb' 10 6 = 0) :
    execClearAlerts causes s
      = .next (answered d stOk []
          (s.onMgmt fun m => { m with latches := m.latches &&& ~~~ (causes.extractLsb' 0 10) })) :=
  onFrame_gives (a := done _) h (if_pos hc) rfl

end

/-- Settles O19: the new mask is the ten named bits, the new latches those without them. -/
theorem alertCommands : Obligations.AlertCommands := by
  intro s causes h
  have listening := listening_of_inRequest h
  have powered : s.pins.porstLow = false := porstLow_of_not_inReset h.1
  refine ⟨fun ⟨i, hi, named⟩ => ?_, fun inRange => ?_⟩
  · have outside : causes.extractLsb' 10 6 ≠ 0 := fun h0 => by
      simp [unusedCauses_eq_zero_iff.mp h0 i hi] at named
    exact ⟨execSetAlertMask_outOfRange listening outside, execClearAlerts_outOfRange listening outside⟩
  have inside : causes.extractLsb' 10 6 = 0 := unusedCauses_eq_zero_iff.mpr inRange
  refine ⟨⟨_, execSetAlertMask_inRange listening inside, fun i hi => getLsbD_namedCauses hi, ?mask⟩,
    ⟨_, execClearAlerts_inRange listening inside, ?latches, ?clear⟩⟩
  case mask =>
    have asserted := alertAsserted_iff
      (s := s.onMgmt fun m => { m with mask := causes.extractLsb' 0 10 }) powered
    refine asserted.trans (exists_congr fun i => and_congr_right fun hi => ?_)
    simp only [State.onMgmt_mgmt, getLsbD_namedCauses hi]
  case latches =>
    intro i hi
    rw [BitVec.getLsbD_and, BitVec.getLsbD_not, getLsbD_namedCauses hi]
    simp [hi]
  case clear => exact alertAsserted_iff powered

end Sys2Proof.Machine
end

section
/-! What a step can do to the parts the laws speak of: every command and every tick is a sequence of the
moves below, each with the guard under which the unit makes it. A law is then kept by every step as soon
as it is kept by every move. -/

namespace Sys2Proof.Machine

-- One declaration at a time: elaborated in parallel, many quick ones exceed the memory limit.
set_option Elab.async false

/-! ## Moves -/

/-- The controller takes part in a take that will push without a further look at the stack (R8). -/
def takingCtrl (k : Ctrl) (role : Role) : Bool :=
  match k with
  | .settling .take _ | .agreeing .take _ => role != .follower
  | .idle | .settling (.rollback _) _ | .agreeing (.rollback _) _ | .restoring _ | .held _ => false

/-- A leader's agreement for a take has not sent GO (R8). -/
def takingAgreement (role : Role) (agreement : Option Agreement) : Bool :=
  match agreement with
  | some a => role == .leader && a.goal == .take && !a.go
  | none => false

/-- takeUnderWay by the three fields it reads. -/
def takeUnderWayOf (k : Ctrl) (role : Role) (agreement : Option Agreement) : Bool :=
  takingCtrl k role || takingAgreement role agreement

theorem takeUnderWay_eq (s : State) :
    takeUnderWay s = takeUnderWayOf s.ckpt.ctrl s.casc.role s.casc.agreement := rfl

/-- From s to t nothing that the laws speak of grows, and no take begins on a full stack where sound
holds. -/
structure Shrinks (sound : Prop) (s t : State) : Prop where
  queue : t.up.queue.length ≤ s.up.queue.length
  fenceList : t.up.fenceList.length ≤ s.up.fenceList.length
  refusals : t.up.refusals.length ≤ s.up.refusals.length
  entries : (t.entries.map Entry.num).Sublist (s.entries.map Entry.num)
  tags : (t.down.tags.map TagUse.num).Sublist (s.down.tags.map TagUse.num)
  upList : t.casc.upList.length ≤ s.casc.upList.length
  downList : t.casc.downList.length ≤ s.casc.downList.length
  badCount : t.casc.badCount ≤ s.casc.badCount
  unrestored : t.restore.unrestored.Sublist s.restore.unrestored
  overflow : t.restore.overflow ≤ s.restore.overflow
  stack : t.ckpt.stack = s.ckpt.stack
  nextNumber : t.ckpt.nextNumber = s.ckpt.nextNumber
  takes : takeUnderWayOf t.ckpt.ctrl t.casc.role t.casc.agreement = true →
    takeUnderWayOf s.ckpt.ctrl s.casc.role s.casc.agreement = true ∨ (sound → s.ckpt.stack.length < 8)
  tail : t.log.tail = s.log.tail
  head : t.log.head = s.log.head
  allocated : t.log.allocated = s.log.allocated
  capacity : t.log.capacity = s.log.capacity
  filter : t.filter.Sublist s.filter

/-- The n oldest records leave and tail moves; the wait list is not served yet (R14, R34). -/
def dropOldest (n : Nat) (s : State) : State :=
  let s := s.onCkpt fun c => { c with stack := c.stack.drop n }
  s.onLog fun l =>
    { l with tail := match s.ckpt.stack.head? with
        | some r => r.mark
        | none => l.head }

/-- The stack and the log cut back to the record r of the number k; the generation has not stepped yet
(R24, R43). -/
def cutBack (k : CkptNumber) (r : CkptRecord) (s : State) : State :=
  (s.onCkpt fun c =>
    { c with stack := c.stack.takeWhile (fun x => x.number != k) ++ [{ r with records := 0 }] }).onLog
      fun l => { l with head := r.mark, allocated := r.mark }

/-- The law of the stack's depth: at most 8 records, and fewer while a take is under way (R1, R8). -/
structure Depth (s : State) : Prop where
  bound : s.ckpt.stack.length ≤ 8
  room : takeUnderWayOf s.ckpt.ctrl s.casc.role s.casc.agreement = true → s.ckpt.stack.length < 8

/-- The moves by which a step changes what the laws speak of. The guards of a take and of a push on the
stack's depth stand only under sound, which a law that needs them takes for True and another for False. -/
inductive Move (sound : Prop) : State → State → Prop
  | shrink {s t : State} (h : Shrinks sound s t) : Move sound s t
  | request {s : State} (r : HostRequest) (room : portHasRoom s.up = true) : Move sound s (takeRequest r s)
  | defer {s : State} (r : Accepted) (room : s.up.fenceList.length < 8) :
      Move sound s (s.onUp fun u => { u with queue := u.queue.drop 1, fenceList := u.fenceList ++ [r] })
  | enroll {s : State} (e : Entry) (free : ∀ x ∈ s.entries, x.num ≠ e.num) :
      Move sound s (s.onEntries fun es => es ++ [e])
  | grant {s : State} (u : TagUse) (free : ∀ x ∈ s.down.tags, x.num ≠ u.num) :
      Move sound s (s.onDown fun d => { d with tags := d.tags ++ [u] })
  | send {s : State} (side : Side) (l : List Message)
      (room : l.length ≤ 4 ∨ l.length ≤ (sendList side s.casc).length) : Move sound s (setSendList side l s)
  | badMessage {s : State} :
      Move sound s (s.onCasc fun c => { c with badCount := min (c.badCount + 1) Config.count16Max })
  | unrestored {s : State} (line : Nat) : Move sound s (addUnrestored line s)
  | insert {s : State} (line : Nat) : Move sound s (filterInsert line s)
  | reserve {s : State} (room : logFull s = false) :
      Move sound s (s.onLog fun l => { l with allocated := l.allocated + 1 })
  | pass {s : State} (o : RecOutcome) (below : s.log.head ≠ s.log.allocated) : Move sound s (passHead o s)
  | breakLive {s : State} : Move sound s (markBroken s)
  | push {s t : State} (n : CkptNumber) (src : Source)
      (room : takeUnderWayOf s.ckpt.ctrl s.casc.role s.casc.agreement = true
        ∨ (sound → s.ckpt.stack.length < 8))
      (number : n = assignedNumber s ∨ (n ≠ 0 ∧ numberHeld n s.ckpt.stack = false))
      (ended : takeUnderWayOf t.ckpt.ctrl t.casc.role t.casc.agreement = false)
      (h : Shrinks sound (pushCkpt n src s) t) : Move sound s t
  | skipNumber {s : State} (n : CkptNumber) :
      Move sound s (s.onCkpt fun c => { c with nextNumber := succNumber n })
  | release {s : State} (n : Nat) : Move sound s (dropOldest n s)
  | truncate {s : State} (k : CkptNumber) (r : CkptRecord) (found : findCkpt k s = some r) :
      Move sound s (cutBack k r s)
  | configure {s : State} (base capacity : Nat) (policy : Policy) (stallLimit watermark : Nat)
      (empty : s.ckpt.stack = []) (bound : capacity ≤ 2 ^ 26) :
      Move sound s (s.onLog (configuredLog base capacity policy stallLimit watermark))
  | abandon {s : State} : Move sound s (s.onLog warmLog)
  | powerOn {s : State} : Move sound s (powerOnReset s)

/-- A sequence of moves. -/
abbrev Path (sound : Prop) : State → State → Prop := Relation.ReflTransGen (Move sound)

theorem stack_cutBack {s : State} {k : CkptNumber} {r : CkptRecord} (found : findCkpt k s = some r) :
    ∃ newer, s.ckpt.stack = s.ckpt.stack.takeWhile (fun x => x.number != k) ++ r :: newer := by
  obtain ⟨hit, before, after, split, missed⟩ := List.find?_eq_some_iff_append.mp found
  refine ⟨after, ?_⟩
  have stop : (r.number != k) = false := by simpa using hit
  have before_kept : before.takeWhile (fun x => x.number != k) = before :=
    List.takeWhile_eq_self_iff.mpr missed
  rw [split, List.takeWhile_append, before_kept, if_pos rfl, List.takeWhile_cons, stop]
  simp

theorem modCurrent_concat (f : CkptRecord → CkptRecord) (l : List CkptRecord) (r : CkptRecord) :
    modCurrent f (l ++ [r]) = l ++ [f r] := by simp [modCurrent]

/-- A change of the current record is not seen by a field it leaves alone. -/
theorem modCurrent_map {α : Type} {f : CkptRecord → CkptRecord} {g : CkptRecord → α} (h : ∀ r, g (f r) = g r)
    (l : List CkptRecord) : (modCurrent f l).map g = l.map g := by
  rcases l.eq_nil_or_concat with rfl | ⟨init, r, rfl⟩
  · rfl
  · simp [modCurrent_concat, h]

theorem passHead_stack (o : RecOutcome) (s : State) : (passHead o s).ckpt.stack
    = modCurrent (fun r => { r with records := min (r.records + 1) Config.recordsMax }) s.ckpt.stack := by
  unfold passHead
  split <;> rfl

theorem Depth.of_eq {s t : State} (h : Depth s) (stack : t.ckpt.stack = s.ckpt.stack)
    (ctrl : t.ckpt.ctrl = s.ckpt.ctrl) (role : t.casc.role = s.casc.role)
    (agreement : t.casc.agreement = s.casc.agreement) : Depth t :=
  ⟨stack ▸ h.bound, by rw [stack, ctrl, role, agreement]; exact h.room⟩

theorem Move.depth {sound : Prop} {s t : State} (h : Move sound s t) (hs : sound) (d : Depth s) : Depth t := by
  cases h with
  | shrink h =>
    exact ⟨h.stack ▸ d.bound, fun taking => h.stack ▸ (h.takes taking).elim d.room fun room => room hs⟩
  | push n src room number ended h =>
    have fewer : s.ckpt.stack.length < 8 := room.elim d.room fun room => room hs
    have stack : t.ckpt.stack = s.ckpt.stack ++ [⟨n, s.log.head, .live, 0, src⟩] := by
      rw [h.stack, pushCkpt_fields]
    exact ⟨by simp [stack]; omega, by simp [ended]⟩
  | release n =>
    have : (s.ckpt.stack.drop n).length ≤ s.ckpt.stack.length := by simp
    exact ⟨this.trans d.bound, fun taking => this.trans_lt (d.room taking)⟩
  | truncate k r found =>
    obtain ⟨newer, split⟩ := stack_cutBack found
    have : (cutBack k r s).ckpt.stack.length ≤ s.ckpt.stack.length := by
      conv_rhs => rw [split]
      simp [cutBack]
    exact ⟨this.trans d.bound, fun taking => this.trans_lt (d.room taking)⟩
  | pass o =>
    have : (passHead o s).ckpt.stack.length = s.ckpt.stack.length := by
      rw [passHead_stack, ← List.length_map CkptRecord.number, modCurrent_map (by intro _; rfl), List.length_map]
    exact ⟨this ▸ d.bound, by rw [this]; simpa using d.room⟩
  | breakLive => exact ⟨by simpa [markBroken] using d.bound, by simpa [markBroken] using d.room⟩
  | powerOn => exact ⟨Nat.zero_le 8, fun _ => Nat.zero_lt_succ 7⟩
  | _ => exact d.of_eq (by simp) (by simp) (by simp) (by simp)

theorem Path.depth {sound : Prop} {s t : State} (h : Path sound s t) (hs : sound → Depth s) (hp : sound) :
    Depth t := by
  induction h with
  | refl => exact hs hp
  | tail _ move ih => exact move.depth hp ih

/-- From s to t by moves, whose guards on the stack's depth hold where the law of depth holds at s. -/
def Moves (s t : State) : Prop := ∀ sound : Prop, (sound → Depth s) → Path sound s t

theorem Moves.refl {s : State} : Moves s s := fun _ _ => .refl

theorem Moves.trans {s t u : State} (h : Moves s t) (h' : Moves t u) : Moves s u := fun sound hs =>
  (h sound hs).trans (h' sound ((h sound hs).depth hs))

theorem Moves.single {s t : State} (h : ∀ {sound}, Move sound s t) : Moves s t := fun _ _ => .single h

theorem Moves.of_shrinks {s t : State} (h : Shrinks True s t) : Moves s t :=
  .single (.shrink { h with takes := fun taking => (h.takes taking).imp_right fun room _ => room trivial })

theorem Moves.ite {s t u : State} {p : Prop} [Decidable p] (ht : p → Moves s t) (hu : ¬ p → Moves s u) :
    Moves s (if p then t else u) := by
  split
  · exact ht ‹_›
  · exact hu ‹_›

/-- The moves of a fold are those of its turns. -/
theorem Moves.foldl {α : Type} {g : State → α → State} (h : ∀ s a, Moves s (g s a)) (l : List α) (s : State) :
    Moves s (l.foldl g s) := by
  induction l generalizing s with
  | nil => exact .refl
  | cons a l ih => exact (h s a).trans (ih _)

/-! ## Operations of the tracker, the log and the preservation engine -/

theorem latch_moves (c : AlertCause) (s : State) : Moves s (latch c s) :=
  .of_shrinks (by constructor <;> simp +contextual)

theorem latchIf_moves (b : Bool) (c : AlertCause) (s : State) : Moves s (latchIf b c s) :=
  .ite (fun _ => latch_moves c s) fun _ => .refl

theorem onCounters_moves (f : Counters → Counters) (s : State) : Moves s (onCounters f s) :=
  .of_shrinks (by constructor <;> simp +contextual)

theorem onMgmt_moves (f : Mgmt → Mgmt) (s : State) : Moves s (s.onMgmt f) :=
  .of_shrinks (by constructor <;> simp +contextual)

theorem modEntry_moves (n : Fin 32) (f : Entry → Entry) (s : State)
    (hf : ∀ e, (f e).num = e.num := by intro _; rfl) : Moves s (modEntry n f s) := by
  have nums : (modEntry n f s).entries.map Entry.num = s.entries.map Entry.num := by
    simp only [modEntry, State.onEntries_entries, List.map_map]
    refine List.map_congr_left fun e _ => ?_
    by_cases h : e.num = n <;> simp [h, hf]
  exact .of_shrinks (by constructor <;> simp +contextual [nums])

theorem modCtx_moves (n : Fin 32) (f : RecordCtx → RecordCtx) (s : State) : Moves s (modCtx n f s) :=
  modEntry_moves n _ s

theorem setDone_moves (n : Fin 32) (st : UpStatus) (s : State) : Moves s (setDone n st s) :=
  modEntry_moves n _ s

theorem pushHost_moves (r : DownReq) (s : State) : Moves s (pushHost r s) :=
  .of_shrinks (by constructor <;> simp +contextual)

theorem pushPreserve_moves (r : DownReq) (s : State) : Moves s (pushPreserve r s) :=
  .of_shrinks (by constructor <;> simp +contextual)

theorem pushRestore_moves (r : DownReq) (s : State) : Moves s (pushRestore r s) :=
  .of_shrinks (by constructor <;> simp +contextual)

/-- A change of the log that leaves its positions and capacity alone. -/
theorem onLog_moves (f : Log → Log) (s : State) (tail : (f s.log).tail = s.log.tail := by rfl)
    (head : (f s.log).head = s.log.head := by rfl) (allocated : (f s.log).allocated = s.log.allocated := by rfl)
    (capacity : (f s.log).capacity = s.log.capacity := by rfl) : Moves s (s.onLog f) :=
  .of_shrinks (by constructor <;> simp +contextual [tail, head, allocated, capacity])

theorem issue_moves (n : Fin 32) (s : State) : Moves s (issue n s) := by
  unfold issue
  split
  · exact .refl
  · exact (modEntry_moves n _ s).trans (pushHost_moves _ _)

theorem reserve_moves {s : State} (room : logFull s = false) (n : Fin 32) : Moves s (reserve n s) := by
  unfold reserve
  split
  · exact ((Moves.single (.reserve room)).trans (modEntry_moves n _ _)).trans
      ((pushPreserve_moves _ _).trans (latchIf_moves _ _ _))
  · exact .refl

theorem joinWaitList_moves (n : Fin 32) (s : State) : Moves s (joinWaitList n s) :=
  ((modEntry_moves n _ s).trans (onLog_moves _ _)).trans (latchIf_moves _ _ _)

theorem issueWaiting_moves (s : State) : Moves s (issueWaiting s) :=
  (Moves.foldl (fun s n => issue_moves n s) _ s).trans (onLog_moves _ _)

theorem reserveWaiting_moves (k : Nat) (s : State) : Moves s (reserveWaiting k s) := by
  induction k generalizing s with
  | zero => exact .refl
  | succ k ih =>
    unfold reserveWaiting
    split
    · exact .refl
    · refine .ite (fun _ => .refl) fun room => ?_
      exact ((onLog_moves _ _).trans (reserve_moves (by simpa [logFull, occupancy] using room) _)).trans (ih _)

theorem serveWaitList_moves (s : State) : Moves s (serveWaitList s) :=
  .ite (fun _ => (reserveWaiting_moves _ s).trans (onLog_moves _ _)) fun _ => issueWaiting_moves s

theorem breakAll_moves (s : State) : Moves s (breakAll s) :=
  .ite (fun _ => (Moves.single .breakLive).trans ((latch_moves _ _).trans (issueWaiting_moves _)))
    fun _ => .refl

theorem preservationStep_moves (e : Entry) (s : State) : Moves s (preservationStep e s) := by
  have counted : Moves s (countProtectedWrite s) := onCounters_moves _ s
  refine counted.trans ?_
  refine Moves.ite (fun _ => issue_moves _ _) fun _ => .ite (fun _ => ?hit) fun _ => .ite (fun room => ?miss) fun _ =>
    .ite (fun _ => setDone_moves _ _ _) fun _ => ?full
  case hit => exact (onCounters_moves _ _).trans (issue_moves _ _)
  case miss => exact reserve_moves room _
  case full =>
    split
    · exact joinWaitList_moves _ _
    · exact (breakAll_moves _).trans (issue_moves _ _)

theorem eligible_moves (e : Entry) (s : State) : Moves s (eligible e s) := by
  unfold eligible
  split
  · exact issue_moves _ _
  · refine .ite (fun _ => setDone_moves _ _ _) fun _ => ?_
    split
    · exact issue_moves _ _
    · exact preservationStep_moves _ _

theorem runChain_moves (line k : Nat) (s : State) : Moves s (runChain line k s) := by
  induction k generalizing s with
  | zero => exact .refl
  | succ k ih =>
    unfold runChain
    split
    · exact .refl
    · exact (eligible_moves _ _).trans (ih _)

theorem finishEntry_moves (n : Fin 32) (st : UpStatus) (s : State) : Moves s (finishEntry n st s) := by
  unfold finishEntry
  split
  · exact .refl
  · exact (setDone_moves _ _ _).trans (runChain_moves _ _ _)

theorem fenceWaiting_moves (s : State) : Moves s (fenceWaiting s) :=
  (onLog_moves _ _).trans (Moves.foldl (fun s n => finishEntry_moves n .fenced s) _ _)

theorem advanceHead_moves (k : Nat) (s : State) : Moves s (advanceHead k s) := by
  induction k generalizing s with
  | zero => exact .refl
  | succ k ih =>
    unfold advanceHead
    refine .ite (fun _ => .refl) fun below => ?_
    split
    · exact .refl
    · exact (Moves.single (.pass _ below)).trans (ih _)

theorem leaveCommitWait_moves (n : Fin 32) (s : State) : Moves s (leaveCommitWait n s) := by
  unfold leaveCommitWait
  split
  · exact .refl
  · exact ((Moves.ite (fun _ => .single (.insert _)) fun _ => .refl).trans
      (modEntry_moves n _ _)).trans (issue_moves _ _)

theorem exitIfReady_moves (n : Fin 32) (s : State) : Moves s (exitIfReady n s) :=
  .ite (fun _ => leaveCommitWait_moves n s) fun _ => .refl

theorem finishRecord_moves (n : Fin 32) (o : RecOutcome) (s : State) : Moves s (finishRecord n o s) := by
  unfold finishRecord
  split
  · exact .refl
  · exact (((modEntry_moves n _ s).trans (modCtx_moves n _ _)).trans
      (onLog_moves _ _)).trans ((advanceHead_moves _ _).trans (exitIfReady_moves n _))

theorem captureOk_moves (n : Fin 32) (old : LineData) (s : State) : Moves s (captureOk n old s) := by
  unfold captureOk
  split
  · exact .refl
  split
  · exact .refl
  · exact ((modEntry_moves n _ s).trans (modCtx_moves n _ _)).trans
      ((pushPreserve_moves _ _).trans (pushPreserve_moves _ _))

theorem capturePoison_moves (n : Fin 32) (timedOut : Bool) (s : State) :
    Moves s (capturePoison n timedOut s) := by
  unfold capturePoison
  split
  · exact .refl
  split
  · exact .refl
  · exact ((latch_moves _ s).trans (modEntry_moves n _ _)).trans
      ((modCtx_moves n _ _).trans (pushPreserve_moves _ _))

theorem endRecord_moves (n : Fin 32) (s : State) : Moves s (endRecord n s) := by
  unfold endRecord
  split
  · exact .refl
  · exact .ite (fun _ => .refl) fun _ => .ite
      (fun _ => .ite (fun _ => .refl) fun _ => finishRecord_moves _ _ _)
      fun _ => .ite (fun _ => finishRecord_moves _ _ _) fun _ => .refl

theorem recordWriteOk_moves (n : Fin 32) (w : RecWrite) (s : State) : Moves s (recordWriteOk n w s) :=
  (modCtx_moves n _ s).trans (endRecord_moves n _)

theorem withdrawWaiting_moves (n : Fin 32) (s : State) : Moves s (withdrawWaiting n s) :=
  (Moves.of_shrinks (by constructor <;> simp +contextual)).trans (modCtx_moves n _ _)

theorem recordWriteBad_moves (n : Fin 32) (w : RecWrite) (timedOut : Bool) (s : State) :
    Moves s (recordWriteBad n w timedOut s) := by
  unfold recordWriteBad
  split
  · exact .refl
  · exact ((modCtx_moves n _ s).trans (Moves.ite (fun _ => .refl) fun _ =>
      (breakAll_moves _).trans (withdrawWaiting_moves n _))).trans (endRecord_moves n _)

theorem captureFreed_moves (n : Fin 32) (s : State) : Moves s (captureFreed n s) :=
  (modCtx_moves n _ s).trans (exitIfReady_moves n _)

theorem recordWriteFreed_moves (n : Fin 32) (s : State) : Moves s (recordWriteFreed n s) :=
  (modCtx_moves n _ s).trans (endRecord_moves n _)

/-! ## Operations of the checkpoint controller -/

theorem setCtrl_moves (k : Ctrl) (s : State) (hk : ∀ role, takingCtrl k role = false := by intro _; rfl) :
    Moves s (setCtrl k s) :=
  .of_shrinks (by constructor <;> simp +contextual [setCtrl, takeUnderWayOf, hk])

/-- A change of the controller that leaves its stack, next number and state alone. -/
theorem onCkpt_moves (f : Controller → Controller) (s : State)
    (stack : (f s.ckpt).stack = s.ckpt.stack := by rfl)
    (number : (f s.ckpt).nextNumber = s.ckpt.nextNumber := by rfl)
    (ctrl : (f s.ckpt).ctrl = s.ckpt.ctrl := by rfl) : Moves s (s.onCkpt f) :=
  .of_shrinks (by constructor <;> simp +contextual [stack, number, ctrl])

theorem raiseFence_moves (s : State) : Moves s (raiseFence s) := onCkpt_moves _ _

theorem standDown_moves (s : State) : Moves s (standDown s) :=
  (onCkpt_moves _ _).trans (setCtrl_moves _ _)

theorem stepGeneration_moves (s : State) : Moves s (stepGeneration s) := by
  have stepped : Moves s (s.onCkpt fun c => { c with generation := c.generation + 1 }) := onCkpt_moves _ s
  refine stepped.trans (Moves.ite (fun _ => ?_) fun _ => .refl)
  exact .of_shrinks (by constructor <;> simp +contextual)

theorem releaseOldest_moves (n : Nat) (s : State) : Moves s (releaseOldest n s) :=
  (Moves.single (.release n)).trans (serveWaitList_moves _)

theorem truncateTo_moves (k : CkptNumber) (s : State) : Moves s (truncateTo k s) := by
  unfold truncateTo
  split
  · exact .refl
  · exact (Moves.single (.truncate k _ ‹_›)).trans (stepGeneration_moves _)

theorem writeResult_moves (r : OpResult) (s : State) : Moves s (writeResult r s) := onMgmt_moves _ s

/-! ## Operations of the cascade controller -/

theorem produceAsk_moves (src : AskSource) (side : Side) (s : State) : Moves s (produceAsk src side s) :=
  .ite (fun _ => onCounters_moves _ s) fun _ => .ite
    (fun room => .single (.send side _ (.inl (by simpa using room)))) fun _ => latch_moves _ s

/-- Taking out the ASKs behind the first message of a list that holds one makes room. -/
theorem length_without_asks {l : List Message} (h : (l.drop 1).any isAsk = true) :
    (l.take 1 ++ (l.drop 1).filter fun x => !isAsk x).length < l.length := by
  obtain ⟨m, mem, ask⟩ := List.any_eq_true.mp h
  have fewer : ((l.drop 1).filter fun x => !isAsk x).length < (l.drop 1).length :=
    List.length_filter_lt_length_iff_exists.mpr ⟨m, mem, by simp [ask]⟩
  have split : (l.take 1).length + (l.drop 1).length = l.length := by
    rw [← List.length_append, List.take_append_drop]
  rw [List.length_append]
  omega

theorem produce_moves (m : Message) (side : Side) (s : State) : Moves s (produce m side s) := by
  refine .ite (fun room => .single (.send side _ (.inl (by simpa using room)))) fun _ => .ite (fun asks => ?_)
    fun _ => latch_moves _ s
  have := length_without_asks asks
  refine .single (.send side _ (.inr ?_))
  rw [List.length_append, List.length_singleton]
  omega

end Sys2Proof.Machine
end

section
/-! Cascade, walk and settle operations as sequences of moves. -/

namespace Sys2Proof.Machine

-- One declaration at a time: elaborated in parallel, many quick ones exceed the memory limit.
set_option Elab.async false

/-! ## Operations of the cascade controller -/

theorem forwardDown_moves (m : Message) (s : State) : Moves s (forwardDown m s) :=
  .ite (fun _ => .refl) fun _ => produce_moves _ _ s

/-- A change of the agreement record that neither turns it into one for a take nor takes its GO back. -/
theorem modAgreement_moves (f : Agreement → Agreement) (s : State)
    (goal : ∀ a, (f a).goal = a.goal := by intro _; rfl)
    (go : ∀ a, a.go = true → (f a).go = true := by intro _; simp) : Moves s (modAgreement f s) := by
  have takes : takingAgreement s.casc.role (s.casc.agreement.map f) = true →
      takingAgreement s.casc.role s.casc.agreement = true := by
    cases s.casc.agreement with
    | none => exact id
    | some a => cases hgo : a.go <;> simp +contextual [takingAgreement, goal, hgo, go]
  refine .of_shrinks ?_
  constructor <;> simp [modAgreement, takeUnderWayOf]
  case takes => exact fun h => .inl (h.imp_right takes)

theorem dropAgreement_moves (s : State) : Moves s (dropAgreement s) :=
  .of_shrinks (by constructor <;> simp +contextual [dropAgreement, takeUnderWayOf, takingAgreement])

theorem setAbandoned_moves (id : OpId) (s : State) : Moves s (setAbandoned id s) :=
  .of_shrinks (by constructor <;> simp +contextual)

/-- An agreement for a take begins only where the controller has begun the take. -/
theorem startAgreement_moves (g : Goal) (src : Source) (s : State)
    (begun : g = .take → takingCtrl s.ckpt.ctrl s.casc.role = true) : Moves s (startAgreement g src s) := by
  have recorded : Moves s (s.onCasc fun c =>
      { c with
        opId := s.casc.opId + 1
        agreement := some (newAgreement (s.casc.opId + 1) g src .awaited c.agreementLimit) }) := by
    refine .of_shrinks ?_
    cases g with
    | take => constructor <;> simp [takeUnderWayOf, begun rfl]
    | rollback k => constructor <;> simp +contextual [takeUnderWayOf, takingAgreement, newAgreement]
  exact recorded.trans (produce_moves _ _ _)

theorem agreeIfLeader_moves (g : Goal) (src : Source) (s : State)
    (begun : g = .take → s.casc.role = .leader → takingCtrl s.ckpt.ctrl s.casc.role = true) :
    Moves s (agreeIfLeader g src s) :=
  .ite (fun role => startAgreement_moves g src s fun take => begun take role) fun _ => .refl

theorem endBeforeGo_moves (a : Agreement) (o : ResultOutcome) (s : State) : Moves s (endBeforeGo a o s) :=
  ((standDown_moves s).trans (writeResult_moves _ _)).trans ((latch_moves _ _).trans (dropAgreement_moves _))

/-! ## The walk -/

theorem enterHeld_moves (r : HeldReason) (s : State) : Moves s (enterHeld r s) :=
  (setCtrl_moves _ s).trans (latchIf_moves _ _ _)

theorem clearUnrestored_moves (s : State) : Moves s (clearUnrestored s) :=
  .of_shrinks (by constructor <;> simp +contextual [clearUnrestored])

/-- A change of the restore engine that leaves the unrestored list and its count alone. -/
theorem onRestore_moves (f : Restore → Restore) (s : State)
    (list : (f s.restore).unrestored = s.restore.unrestored := by rfl)
    (count : (f s.restore).overflow = s.restore.overflow := by rfl) : Moves s (s.onRestore f) :=
  .of_shrinks (by constructor <;> simp +contextual [list, count])

theorem reportWalk_moves (w : Walk) (o : DoneOutcome) (s : State) : Moves s (reportWalk w o s) := by
  have noted : Moves s (modAgreement
      (fun a => { a with own := some o, applied := w.applied, unrestored := linesUnrestored s }) s) :=
    modAgreement_moves _ s
  refine noted.trans (Moves.ite (fun _ => .refl) fun _ => ?_)
  exact (writeResult_moves _ _).trans (latch_moves _ _)

theorem finishWalk_moves (w : Walk) (s : State) : Moves s (finishWalk w s) := by
  have stopped : Moves s (s.onRestore fun r => { r with walk := none }) := onRestore_moves _ s
  refine stopped.trans ?_
  unfold finishWalk
  dsimp only
  split
  · exact ((breakAll_moves _).trans (enterHeld_moves _ _)).trans (reportWalk_moves _ _ _)
  · exact ((truncateTo_moves _ _).trans (standDown_moves _)).trans (reportWalk_moves _ _ _)
  · exact ((truncateTo_moves _ _).trans (standDown_moves _)).trans (reportWalk_moves _ _ _)
  · exact .refl

theorem setWalk_moves (w : Walk) (s : State) : Moves s (setWalk w s) := onRestore_moves _ s

theorem requestHeader_moves (w : Walk) (s : State) : Moves s (requestHeader w s) :=
  (setWalk_moves _ s).trans (pushRestore_moves _ _)

theorem startWalk_moves (k : CkptNumber) (s : State) : Moves s (startWalk k s) := by
  unfold startWalk
  split
  · exact .refl
  · exact (setCtrl_moves _ s).trans (Moves.ite (fun _ => finishWalk_moves _ _) fun _ => requestHeader_moves _ _)

theorem recordDone_moves (w : Walk) (s : State) : Moves s (recordDone w s) :=
  .ite (fun _ => finishWalk_moves _ s) fun _ => requestHeader_moves _ s

theorem moveOn_moves (w : Walk) (s : State) : Moves s (moveOn w s) :=
  .ite (fun _ => finishWalk_moves _ s) fun _ => requestHeader_moves _ s

theorem walkHeaderOk_moves (w : Walk) (h : LineData) (s : State) : Moves s (walkHeaderOk w h s) :=
  .ite (fun _ => recordDone_moves _ s) fun _ => .ite
    (fun _ => (Moves.single (.unrestored _)).trans (recordDone_moves _ _))
    fun _ => (setWalk_moves _ s).trans (pushRestore_moves _ _)

theorem walkDataOk_moves (w : Walk) (d : LineData) (s : State) : Moves s (walkDataOk w d s) := by
  unfold walkDataOk
  split
  · exact .refl
  · exact .ite (fun _ => (setWalk_moves _ s).trans (pushRestore_moves _ _)) fun _ => recordDone_moves _ s

theorem failLine_moves (w : Walk) (s : State) : Moves s (failLine w s) := by
  unfold failLine
  split
  · exact .refl
  · exact .single (.unrestored _)

theorem drainWalk_moves (w : Walk) (s : State) : Moves s (drainWalk w s) := setWalk_moves _ s

theorem walkFreed_moves (s : State) : Moves s (walkFreed s) := by
  unfold walkFreed
  split
  · exact .refl
  · exact .ite (fun _ => moveOn_moves _ s) fun _ => setWalk_moves _ s

/-! ## Settles, sends and the trigger check -/

/-- The push of a take under way, followed by what leaves the laws' parts alone and ends the take. -/
theorem push_moves {s t : State} {src : Source}
    (taking : takeUnderWayOf s.ckpt.ctrl s.casc.role s.casc.agreement = true)
    (ended : takeUnderWayOf t.ckpt.ctrl t.casc.role t.casc.agreement = false)
    (h : ∀ {sound}, Shrinks sound (pushCkpt (assignedNumber s) src s) t) : Moves s t :=
  .single (.push _ src (.inl taking) (.inl rfl) ended h)

theorem takeUnderWayOf_solo (a : Option Agreement) : takeUnderWayOf .idle .solo a = false := by
  cases a <;> rfl

theorem Shrinks.refl {sound : Prop} (s : State) : Shrinks sound s s := by constructor <;> simp +contextual

theorem soloPush_moves {s : State} {src src' : Source} (ctrl : s.ckpt.ctrl = .settling .take src)
    (role : s.casc.role = .solo) : Moves s (soloPush src' s) := by
  have pushed : Moves s (pushCkpt (assignedNumber s) src' s) :=
    push_moves (by simp [takeUnderWayOf, takingCtrl, ctrl, role]) (by simp [pushCkpt_fields, role, takeUnderWayOf_solo]) (Shrinks.refl _)
  exact pushed.trans ((writeResult_moves _ _).trans (latch_moves _ _))

theorem enterAgreeing_moves {s : State} {g : Goal} {src : Source} (ctrl : s.ckpt.ctrl = .settling g src) :
    Moves s (enterAgreeing g src s) := by
  have agreeing : Moves s (setCtrl (.agreeing g src) s) := by
    refine .of_shrinks ?_
    have takes : takeUnderWayOf (.agreeing g src) s.casc.role s.casc.agreement
        = takeUnderWayOf s.ckpt.ctrl s.casc.role s.casc.agreement := by rw [ctrl]; cases g <;> rfl
    constructor <;> simp +contextual [setCtrl, takes]
  exact agreeing.trans (modAgreement_moves _ _)

theorem settleTake_moves (s : State) : Moves s (settleTake s) := by
  unfold settleTake
  split
  · exact .ite (fun _ => .ite (fun role => soloPush_moves ‹_› role) fun _ => enterAgreeing_moves ‹_›) fun _ => .refl
  all_goals exact .refl

theorem refuseBroken_moves (k : CkptNumber) (src : Source) (s : State) : Moves s (refuseBroken k src s) := by
  have refused : Moves s (latch .rollbackDone
      (writeResult (rollbackResult src .refused k 0 0 (cascadeIdOf s)) (standDown s))) :=
    (standDown_moves s).trans ((writeResult_moves _ _).trans (latch_moves _ _))
  refine refused.trans ?_
  unfold refuseBroken
  dsimp only
  split
  · exact .refl
  · refine Moves.ite (fun _ => (produce_moves _ _ _).trans (dropAgreement_moves _)) fun _ => ?_
    exact (Moves.ite (fun _ => produce_moves _ _ _) fun _ => .refl).trans
      ((setAbandoned_moves _ _).trans (dropAgreement_moves _))

theorem settleRollback_moves (s : State) : Moves s (settleRollback s) := by
  unfold settleRollback
  split
  · exact .ite (fun _ => .ite (fun _ => .ite (fun _ => startWalk_moves _ s) fun _ => enterAgreeing_moves ‹_›)
      fun _ => refuseBroken_moves _ _ s) fun _ => .refl
  all_goals exact .refl

theorem settle_moves (s : State) : Moves s (settle s) := (settleTake_moves s).trans (settleRollback_moves _)

/-- The number a leader assigns does not depend on its send lists. -/
theorem assignedNumber_produce (m : Message) (side : Side) (s : State) :
    assignedNumber (produce m side s) = assignedNumber s := by simp [assignedNumber]

theorem takeUnderWayOf_leader {a : Agreement} {k : Ctrl} (go : a.go = false) (goal : a.goal = .take) :
    takeUnderWayOf k .leader (some a) = true := by simp [takeUnderWayOf, takingAgreement, go, goal]

theorem goTake_moves {s : State} {a : Agreement} (ha : s.casc.agreement = some a) (role : s.casc.role = .leader)
    (go : a.go = false) (goal : a.goal = .take) : Moves s (goTake a s) := by
  refine (produce_moves (.go a.id (assignedNumber s)) .down s).trans ?_
  refine push_moves (src := a.source) ?_ ?_ ?_
  · simp [ha, role, takeUnderWayOf_leader go goal]
  · simp [goTake, modAgreement, pushCkpt_fields, ha, takeUnderWayOf, takingCtrl, takingAgreement]
  · intro sound
    rw [assignedNumber_produce]
    constructor <;> simp +contextual [goTake, modAgreement, pushCkpt_fields, ha, takeUnderWayOf, takingCtrl, takingAgreement]

theorem goRollback_moves (a : Agreement) (k : CkptNumber) (s : State) : Moves s (goRollback a k s) :=
  (produce_moves _ _ s).trans ((modAgreement_moves _ _).trans (startWalk_moves _ _))

theorem leaderGo_moves (s : State) : Moves s (leaderGo s) := by
  unfold leaderGo
  split
  · exact .refl
  · refine .ite (fun ⟨role, _, _, go⟩ => ?_) fun _ => .refl
    split
    · exact goTake_moves ‹_› role go ‹_›
    · exact goRollback_moves _ _ s

theorem readyOk_moves (s : State) : Moves s (readyOk s) := by
  unfold readyOk
  split
  · exact .refl
  · exact .ite (fun _ => (produce_moves _ _ s).trans (modAgreement_moves _ _)) fun _ => .refl

theorem agreementEnd_moves (s : State) : Moves s (agreementEnd s) := by
  unfold agreementEnd
  split
  · exact .refl
  split
  · exact .ite (fun _ => (writeResult_moves _ s).trans ((latch_moves _ _).trans (dropAgreement_moves _)))
      fun _ => .refl
  all_goals exact .refl

theorem doneSend_moves (s : State) : Moves s (doneSend s) := by
  unfold doneSend
  split
  · exact .refl
  split
  · exact .refl
  · exact .ite (fun _ => (produce_moves _ _ s).trans (dropAgreement_moves _)) fun _ => .refl

theorem cascadeFollow_moves (s : State) : Moves s (cascadeFollow s) :=
  ((leaderGo_moves s).trans (readyOk_moves _)).trans ((agreementEnd_moves _).trans (doneSend_moves _))

theorem clearFlags_moves (s : State) : Moves s (clearFlags s) := onCkpt_moves _ s

/-- A take starts where a law that rests on the stack's depth finds room. -/
theorem startTake_path {sound : Prop} {s : State} (hs : sound → Depth s) (src : Source)
    (room : sound → s.ckpt.stack.length < 8) : Path sound s (startTake src s) := by
  have begun : Path sound s (setCtrl (.settling .take src) (raiseFence (clearFlags
      (countMerged (flagCount s.ckpt - (if src = .command then 0 else 1)) s)))) := by
    refine .single (.shrink ?_)
    constructor <;> simp [setCtrl]
    case takes => exact fun _ => .inr room
  refine begun.trans (agreeIfLeader_moves _ _ _ (fun _ role => ?_) sound (begun.depth hs))
  simp_all [takingCtrl, setCtrl]

theorem missTrigger_moves (src : Source) (s : State) : Moves s (missTrigger src s) :=
  (clearFlags_moves s).trans ((writeResult_moves _ _).trans (latch_moves _ _))

end Sys2Proof.Machine
end

section
/-! The line ports, the commands and the ticks as sequences of moves. -/

namespace Sys2Proof.Machine

-- One declaration at a time: elaborated in parallel, many quick ones exceed the memory limit.
set_option Elab.async false

theorem releaseOldest_stack (n : Nat) (s : State) : (releaseOldest n s).ckpt.stack = s.ckpt.stack.drop n := by
  simp [releaseOldest]

theorem triggerCheck_moves (s : State) : Moves s (triggerCheck s) := by
  refine .ite (fun _ => .refl) fun _ => ?_
  split
  · exact .refl
  refine .ite (fun _ => missTrigger_moves _ s) fun _ => ?_
  refine Moves.trans (fun sound hs => ?_) (settle_moves _)
  split
  · have released := releaseOldest_moves 1 s sound hs
    refine released.trans (startTake_path (released.depth hs) _ fun hp => ?_)
    have depth := (hs hp).bound
    rw [releaseOldest_stack, List.length_drop]
    omega
  · exact startTake_path hs _ fun _ => by simpa [stackFull] using ‹¬ stackFull s = true›

theorem controlFollow_moves (before s : State) : Moves s (controlFollow before s) :=
  ((settle_moves s).trans (cascadeFollow_moves _)).trans
    (Moves.ite (fun _ => triggerCheck_moves _) fun _ => .refl)

theorem latchFlag_moves (src : Source) (s : State) : Moves s (latchFlag src s) := by
  have flagged (u : State) : Moves u (u.onCkpt fun c =>
      match src with
      | .command => c
      | .line => { c with lineFlag := true }
      | .timer => { c with timerFlag := true }
      | .cascade => { c with cascadeFlag := true }) :=
    onCkpt_moves _ u (by cases src <;> rfl) (by cases src <;> rfl) (by cases src <;> rfl)
  exact ((Moves.ite (fun _ => onCounters_moves _ s) fun _ => .refl).trans (flagged _)).trans (latchIf_moves _ _ _)

/-! ## The line ports -/

/-- A change of the downstream port that leaves its tags' numbers alone or drops some. -/
theorem onDown_moves (f : Downstream → Downstream) (s : State)
    (tags : ((f s.down).tags.map TagUse.num).Sublist (s.down.tags.map TagUse.num)) : Moves s (s.onDown f) :=
  .of_shrinks (by constructor <;> simp +contextual [tags])

theorem tellGranted_moves (o : Owner) (t : Fin 32) (s : State) : Moves s (tellGranted o t s) := by
  cases o with
  | host n | capture n => exact modEntry_moves n _ s
  | headerWrite n | dataWrite n => exact modCtx_moves n _ s
  | walkHeader | walkData | walkWrite => exact .refl

theorem grantUnder_moves {t : Fin 32} {s : State} (free : ∀ u ∈ s.down.tags, u.num ≠ t) (c : DownClass)
    (used : Nat) (r : DownReq) : Moves s (grantUnder c used t r s) := by
  have tagged : Moves s (s.onDown fun d => { d with tags := d.tags ++ [⟨t, .outstanding r none⟩] }) :=
    .single (.grant ⟨t, .outstanding r none⟩ free)
  have popped (u : State) : Moves u (u.onDown fun d =>
      { popReady c d with tags := d.tags, channel := some t, turn := c, used := used }) :=
    onDown_moves _ u (List.Sublist.refl _)
  have granted := tagged.trans (popped _)
  cases c <;> exact granted.trans (tellGranted_moves r.owner t _)

theorem freeTag_free {d : Downstream} {t : Fin 32} (h : freeTag d = some t) : ∀ u ∈ d.tags, u.num ≠ t := by
  have := List.find?_some h
  simp only [Bool.and_eq_true, List.all_eq_true, bne_iff_ne] at this
  exact this.2

theorem grantIfDue_moves (s : State) : Moves s (grantIfDue s) := by
  unfold grantIfDue
  split
  · split
    · exact .refl
    · exact grantUnder_moves (freeTag_free ‹_›) _ _ _
  · exact .refl

theorem freeTheTag_moves (t : Fin 32) (s : State) : Moves s (freeTheTag t s) :=
  onDown_moves _ s (List.filter_sublist.map _)

theorem setTag_moves (t : Fin 32) (st : TagState) (s : State) : Moves s (setTag t st s) := by
  refine onDown_moves _ s ?_
  rw [List.map_map]
  refine (List.map_congr_left fun u _ => ?_).symm ▸ List.Sublist.refl _
  by_cases h : u.num = t <;> simp [h]

theorem hostEnd_moves (n : Fin 32) (st : UpStatus) (data : LineData) (s : State) : Moves s (hostEnd n st data s) :=
  (modEntry_moves n _ s).trans (finishEntry_moves n st _)

theorem hostFreed_moves (n : Fin 32) (s : State) : Moves s (hostFreed n s) :=
  (modEntry_moves n _ s).trans (finishEntry_moves n _ _)

theorem onWalk_moves {f : Walk → State → State} (h : ∀ w s, Moves s (f w s)) (s : State) :
    Moves s (onWalk f s) := by
  unfold onWalk
  split
  · exact .refl
  · exact h _ s

theorem deliver_moves (o : Owner) (e : End) (s : State) : Moves s (deliver o e s) := by
  unfold deliver
  split
  · exact hostEnd_moves _ _ _ s
  · exact hostEnd_moves _ _ _ s
  · exact modEntry_moves _ _ s
  · exact captureOk_moves _ _ s
  · exact capturePoison_moves _ _ s
  · exact capturePoison_moves _ _ s
  · exact recordWriteOk_moves _ _ s
  · exact recordWriteBad_moves _ _ _ s
  · exact recordWriteBad_moves _ _ _ s
  · exact recordWriteOk_moves _ _ s
  · exact recordWriteBad_moves _ _ _ s
  · exact recordWriteBad_moves _ _ _ s
  · exact onWalk_moves (fun w s => walkHeaderOk_moves w _ s) s
  · exact onWalk_moves (fun w s => recordDone_moves _ s) s
  · exact onWalk_moves (fun w s => drainWalk_moves _ s) s
  · exact onWalk_moves (fun w s => walkDataOk_moves w _ s) s
  · exact onWalk_moves (fun w s => recordDone_moves _ s) s
  · exact onWalk_moves (fun w s => drainWalk_moves _ s) s
  · exact onWalk_moves (fun w s => recordDone_moves _ s) s
  · exact onWalk_moves (fun w s => (failLine_moves w s).trans (recordDone_moves _ _)) s
  · exact onWalk_moves (fun w s => (failLine_moves w s).trans (drainWalk_moves _ _)) s

theorem deliverFreed_moves (o : Owner) (s : State) : Moves s (deliverFreed o s) := by
  cases o with
  | host n => exact hostFreed_moves n s
  | capture n => exact captureFreed_moves n s
  | headerWrite n | dataWrite n => exact recordWriteFreed_moves n s
  | walkHeader | walkData | walkWrite => exact walkFreed_moves s

/-- A change of the upstream port and the admission side after which no queue is longer. -/
theorem onUp_moves (f : Upstream → Upstream) (s : State)
    (queue : (f s.up).queue.length ≤ s.up.queue.length := by exact le_rfl)
    (fenceList : (f s.up).fenceList.length ≤ s.up.fenceList.length := by exact le_rfl)
    (refusals : (f s.up).refusals.length ≤ s.up.refusals.length := by exact le_rfl) : Moves s (s.onUp f) :=
  .of_shrinks (by constructor <;> simp +contextual [queue, fenceList, refusals])

theorem offerIfDue_moves (s : State) : Moves s (offerIfDue s) :=
  .ite (fun _ => onUp_moves _ s) fun _ => .refl

theorem takeOffered_moves (s : State) : Moves s (takeOffered s) := by
  unfold takeOffered
  split
  · exact .refl
  · exact .ite (fun room => (onUp_moves _ s).trans (.single (.request _ room))) fun _ => .refl

theorem portFollow_moves (s : State) : Moves s (portFollow s) :=
  (grantIfDue_moves s).trans (offerIfDue_moves _)

/-! ## Resets -/

theorem warmReset_moves (s : State) : Moves s (warmReset s) := by
  refine (Moves.single .abandon).trans (Moves.of_shrinks ?_)
  have takes : takeUnderWayOf (warmCtrl s.ckpt.ctrl) s.casc.role none = false := by
    cases s.ckpt.ctrl <;> rfl
  constructor <;>
    simp [warmReset, resetUpstream, Upstream.reset, warmLog, warmController, warmDownstream, warmCascade, takes]

theorem onPins_moves (f : Pins → Pins) (s : State) : Moves s (s.onPins f) :=
  .of_shrinks (by constructor <;> simp +contextual)

theorem startPendingReset_moves (s : State) : Moves s (startPendingReset s) :=
  .ite (fun _ => (warmReset_moves s).trans (onPins_moves _ _)) fun _ => .refl

theorem resume_moves (q : Bool) (s : State) : Moves s (resume q s) := by
  have level : Moves s (s.onCkpt fun c => { c with ckptLevel := q }) := onCkpt_moves _ s
  refine level.trans (Moves.ite (fun _ => .refl) fun _ => ?_)
  exact (onMgmt_moves _ _).trans ((takeOffered_moves _).trans (offerIfDue_moves _))

/-! ## Commands -/

/-- The outcome is a next state, reached by moves. -/
def MovesOn (s : State) (o : Host.Outcome State Fault Refusal) : Prop := ∃ t, o = .next t ∧ Moves s t

theorem MovesOn.next {s t : State} (h : Moves s t) : MovesOn s (.next t) := ⟨t, rfl, h⟩

theorem event_movesOn {s : State} {f : State → State} (h : Moves s (f s)) : MovesOn s (event s f) :=
  .next (.ite (fun _ => .refl) fun _ => h)

theorem onFrame_movesOn {s : State} {run : State → Answer} (h : Moves s (run s).state) :
    MovesOn s (onFrame s run) := by
  refine .next (.ite (fun _ => .refl) fun _ => ?_)
  split
  · exact h.trans (onMgmt_moves _ _)
  · exact h.trans ((onMgmt_moves _ _).trans (startPendingReset_moves _))
  · exact .refl
  · exact .refl

theorem receive_moves {side proper : Side} {m : Message} {handle : State → State} {s : State}
    (h : sideUsed proper s.casc = true → m.wellFormed = true → Moves s (handle s)) :
    Moves s (receive side proper m handle s) := by
  refine .ite (fun _ => .refl) fun used => .ite (fun _ => ?_) fun formed => .ite (fun _ => latch_moves _ s) fun way =>
    h ?_ ?_
  · exact (Moves.single .badMessage).trans (latch_moves _ _)
  · obtain rfl : side = proper := by simpa using way
    simpa using used
  · simpa using formed

/-- Only a follower uses the UP side (R155). -/
theorem follower_of_upUsed {c : Cascade} (h : sideUsed .up c = true) : c.role = .follower := by
  revert h
  unfold sideUsed
  split <;> simp_all

theorem beginRollback_moves (k : CkptNumber) (src : Source) (s : State) : Moves s (beginRollback k src s) :=
  ((clearUnrestored_moves s).trans (raiseFence_moves _)).trans ((setCtrl_moves _ _).trans (fenceWaiting_moves _))

theorem takingCtrl_follower (k : Ctrl) : takingCtrl k .follower = false := by
  unfold takingCtrl
  split <;> rfl

theorem takingAgreement_follower (a : Option Agreement) : takingAgreement .follower a = false := by
  cases a <;> rfl

theorem takeUnderWayOf_follower (k : Ctrl) (a : Option Agreement) : takeUnderWayOf k .follower a = false := by
  rw [takeUnderWayOf, takingCtrl_follower, takingAgreement_follower]; rfl

/-- A change of the cascade part at a follower that leaves its role, lists and bad-message count alone. -/
theorem onCasc_follower_moves (f : Cascade → Cascade) {s : State} (h : s.casc.role = .follower)
    (role : (f s.casc).role = s.casc.role := by rfl) (upList : (f s.casc).upList = s.casc.upList := by rfl)
    (downList : (f s.casc).downList = s.casc.downList := by rfl)
    (badCount : (f s.casc).badCount = s.casc.badCount := by rfl) : Moves s (s.onCasc f) :=
  .of_shrinks (by constructor <;> simp [role, upList, downList, badCount, h, takeUnderWayOf_follower])

theorem beginFollower_moves (g : Goal) {s : State} (h : s.casc.role = .follower) : Moves s (beginFollower g s) := by
  cases g with
  | take =>
    have settling (u : State) (hu : u.casc.role = .follower) : Moves u (setCtrl (.settling .take .cascade) u) :=
      .of_shrinks (by constructor <;> simp [setCtrl, hu, takeUnderWayOf_follower])
    exact (raiseFence_moves s).trans (settling _ (by simpa using h))
  | rollback k => exact beginRollback_moves k _ s

theorem acceptPrepare_moves (id : OpId) (g : Goal) {s : State} (h : s.casc.role = .follower) :
    Moves s (acceptPrepare id g s) := by
  refine ((onCasc_follower_moves _ h).trans (forwardDown_moves _ _)).trans (beginFollower_moves g ?_)
  simpa using h

theorem handlePrepare_moves (id : OpId) (kind : OpKind) (number : CkptNumber) {s : State}
    (h : s.casc.role = .follower) : Moves s (handlePrepare id kind number s) := by
  unfold handlePrepare
  split
  · exact produce_moves _ _ s
  split
  · exact (produce_moves _ _ s).trans (setAbandoned_moves _ _)
  · exact (acceptPrepare_moves _ _ h).trans ((controlFollow_moves _ _).trans (portFollow_moves _))

theorem leaderReady_moves (id : OpId) (v : ReadyVerdict) (s : State) : Moves s (leaderReady id v s) := by
  have reasoned (r : RefuseReason) : Moves s (s.onCasc fun c => { c with lastRefusal := some r }) :=
    .of_shrinks (by constructor <;> simp +contextual)
  unfold leaderReady
  split
  · refine .ite (fun _ => .ite (fun _ => ?_) fun _ => latch_moves _ s) fun _ => latch_moves _ s
    split
    · exact modAgreement_moves _ s
    · exact (reasoned _).trans ((produce_moves _ _ _).trans (endBeforeGo_moves _ _ _))
  · exact .ite (fun _ => .refl) fun _ => latch_moves _ s

theorem followerReady_moves (id : OpId) (v : ReadyVerdict) (s : State) : Moves s (followerReady id v s) := by
  unfold followerReady
  split
  · refine .ite (fun _ => .ite (fun _ => ?_) fun _ => latch_moves _ s) fun _ =>
      .ite (fun _ => .refl) fun _ => latch_moves _ s
    split
    · exact modAgreement_moves _ s
    · exact .ite (fun _ => (produce_moves _ _ s).trans (modAgreement_moves _ _)) fun _ => modAgreement_moves _ s
  · exact .ite (fun _ => .refl) fun _ => latch_moves _ s

theorem handleReady_moves (id : OpId) (v : ReadyVerdict) (s : State) : Moves s (handleReady id v s) :=
  ((Moves.ite (fun _ => leaderReady_moves id v s) fun _ => followerReady_moves id v s).trans
    (controlFollow_moves s _)).trans (portFollow_moves _)

theorem failApply_moves (id : OpId) (n : CkptNumber) (s : State) : Moves s (failApply id n s) :=
  (((Moves.single (.skipNumber n)).trans (standDown_moves _)).trans (writeResult_moves _ _)).trans
    ((latch_moves _ _).trans (modAgreement_moves _ _))

theorem applyTake_moves (id : OpId) {n : CkptNumber} (hn : n ≠ 0) {s : State} (h : s.casc.role = .follower) :
    Moves s (applyTake id n s) := by
  refine .ite (fun _ => failApply_moves id n s) fun _ => ?_
  intro sound hs
  have released : Moves s (if stackFull s then releaseOldest 1 s else s) :=
    .ite (fun _ => releaseOldest_moves 1 s) fun _ => .refl
  have room : sound → (if stackFull s then releaseOldest 1 s else s).ckpt.stack.length < 8 := fun hp => by
    have depth := (hs hp).bound
    split
    · rw [releaseOldest_stack, List.length_drop]
      omega
    · simpa [stackFull] using ‹¬ stackFull s = true›
  have role : (if stackFull s then releaseOldest 1 s else s).casc.role = .follower := by split <;> simp [h]
  refine (released sound hs).trans ?_
  have depth := (released sound hs).depth hs
  generalize (if stackFull s then releaseOldest 1 s else s) = u at *
  dsimp only
  split
  · exact failApply_moves id n u sound depth
  · have pushed : Path sound u (pushCkpt n .cascade u) :=
      .single (.push n .cascade (.inr room) (.inr ⟨hn, by simpa using ‹¬ numberHeld n u.ckpt.stack = true›⟩)
        (by simp [pushCkpt_fields, role, takeUnderWayOf_follower]) (Shrinks.refl _))
    exact pushed.trans (((writeResult_moves _ _).trans ((latch_moves _ _).trans (modAgreement_moves _ _))) sound
      (pushed.depth depth))

theorem strayGo_moves (id : OpId) (s : State) : Moves s (strayGo id s) :=
  ((latch_moves _ s).trans (produce_moves _ _ _)).trans (forwardDown_moves _ _)

theorem applyGo_moves (a : Agreement) {n : CkptNumber} (hn : n ≠ 0) {s : State} (h : s.casc.role = .follower) :
    Moves s (applyGo a n s) := by
  have noted : Moves s (modAgreement (fun a => { a with go := true, timer := none }) s) := modAgreement_moves _ s
  refine (noted.trans (forwardDown_moves (.go a.id n) _)).trans ?_
  unfold applyGo
  dsimp only
  split
  · exact applyTake_moves _ hn (by simpa using h)
  · exact startWalk_moves _ _

theorem handleGo_moves (id : OpId) {n : CkptNumber} (hn : n ≠ 0) {s : State} (h : s.casc.role = .follower) :
    Moves s (handleGo id n s) := by
  unfold handleGo
  split
  · refine .ite (fun _ => .ite (fun _ => ?_) fun _ => latch_moves _ s) fun _ => strayGo_moves id s
    exact (applyGo_moves _ hn h).trans ((controlFollow_moves _ _).trans (portFollow_moves _))
  · exact strayGo_moves id s

theorem leaveAgreement_moves (a : Agreement) (o : ResultOutcome) (s : State) : Moves s (leaveAgreement a o s) :=
  (endBeforeGo_moves a o s).trans (setAbandoned_moves _ _)

theorem handleAbandon_moves (id : OpId) (s : State) : Moves s (handleAbandon id s) := by
  unfold handleAbandon
  split
  · exact .ite (fun _ => .ite (fun _ => latch_moves _ s) fun _ =>
      (forwardDown_moves _ s).trans (leaveAgreement_moves _ _ _)) fun _ => forwardDown_moves _ s
  · exact forwardDown_moves _ s

theorem takeBelowDone_moves (a : Agreement) (o : DoneOutcome) (s : State) : Moves s (takeBelowDone a o s) :=
  .ite (fun _ => modAgreement_moves _ s) fun _ => (latch_moves _ s).trans (modAgreement_moves _ _)

theorem leaderDone_moves (id : OpId) (o : DoneOutcome) (s : State) : Moves s (leaderDone id o s) := by
  unfold leaderDone
  split
  · exact .ite (fun _ => .ite (fun _ => .ite (fun _ => .refl) fun _ => takeBelowDone_moves _ o s)
      fun _ => latch_moves _ s) fun _ => latch_moves _ s
  · exact .ite (fun _ => .refl) fun _ => latch_moves _ s

theorem followerDone_moves (id : OpId) (o : DoneOutcome) (s : State) : Moves s (followerDone id o s) := by
  unfold followerDone
  split
  · exact .ite (fun _ => .ite (fun _ => takeBelowDone_moves _ o s) fun _ => latch_moves _ s) fun _ =>
      .ite (fun _ => produce_moves _ _ s) fun _ => latch_moves _ s
  · exact .ite (fun _ => produce_moves _ _ s) fun _ => latch_moves _ s

theorem handleDone_moves (id : OpId) (o : DoneOutcome) (s : State) : Moves s (handleDone id o s) :=
  ((Moves.ite (fun _ => leaderDone_moves id o s) fun _ => followerDone_moves id o s).trans
    (controlFollow_moves s _)).trans (portFollow_moves _)

theorem handleAsk_moves (src : AskSource) (s : State) : Moves s (handleAsk src s) :=
  .ite (fun _ => ((latchFlag_moves _ s).trans (triggerCheck_moves _)).trans (portFollow_moves _))
    fun _ => produceAsk_moves src .up s

/-! ### Commands of the controller and the ports -/

theorem afterSettle_moves (before s : State) : Moves s (afterSettle before s) :=
  ((cascadeFollow_moves s).trans (Moves.ite (fun _ => triggerCheck_moves _) fun _ => .refl)).trans (portFollow_moves _)

theorem execStallLimitExpiry_movesOn (s : State) : MovesOn s (execStallLimitExpiry s) :=
  event_movesOn (.ite (fun _ => .refl) fun _ =>
    ((onCounters_moves _ s).trans (onLog_moves _ _)).trans ((breakAll_moves _).trans (grantIfDue_moves _)))

theorem execCkptReqRise_movesOn (s : State) : MovesOn s (execCkptReqRise s) := by
  have risen : Moves s (s.onCkpt fun c => { c with ckptLevel := true }) := onCkpt_moves _ s
  refine event_movesOn (risen.trans (Moves.ite (fun _ => Moves.ite (fun _ => produceAsk_moves _ _ _) fun _ => ?_)
    fun _ => .refl))
  exact (latchFlag_moves _ _).trans ((triggerCheck_moves _).trans (portFollow_moves _))

theorem execIntervalExpiry_movesOn (s : State) : MovesOn s (execIntervalExpiry s) := by
  have reloaded : Moves s (s.onCkpt fun c => { c with intervalCount := c.interval, intervalMicros := 0 }) :=
    onCkpt_moves _ s
  refine event_movesOn (.ite (fun _ => .refl) fun _ => reloaded.trans (Moves.ite
    (fun _ => Moves.ite (fun _ => produceAsk_moves _ _ _) fun _ => .refl) fun _ => ?_))
  exact (latchFlag_moves _ _).trans ((triggerCheck_moves _).trans (portFollow_moves _))

theorem takeDownRequest_moves (t : Fin 32) (s : State) : Moves s (takeDownRequest t s) := by
  have freed : Moves s (s.onDown fun d => { d with channel := none }) := onDown_moves _ s (List.Sublist.refl _)
  refine freed.trans ?_
  unfold takeDownRequest
  dsimp only
  split
  · exact setTag_moves _ _ _
  all_goals exact .refl

theorem takeDownResponse_moves (t : Fin 32) (kind : RwKind) (st : DownStatus) (data : LineData) (s : State) :
    Moves s (takeDownResponse t kind st data s) := by
  unfold takeDownResponse
  split
  · exact .ite (fun _ => ((freeTheTag_moves t s).trans (latchIf_moves _ _ _)).trans (deliver_moves _ _ _))
      fun _ => latch_moves _ s
  · exact .ite (fun _ => (freeTheTag_moves t s).trans (deliverFreed_moves _ _)) fun _ => latch_moves _ s
  all_goals exact latch_moves _ s

theorem timeOutTag_moves (t : Fin 32) (r : DownReq) (s : State) : Moves s (timeOutTag t r s) :=
  ((setTag_moves t _ s).trans (onCounters_moves _ _)).trans ((latch_moves _ _).trans (deliver_moves _ _ _))

theorem execDownstreamTimeout_movesOn (t : Fin 32) (s : State) : MovesOn s (execDownstreamTimeout t s) := by
  refine event_movesOn ?_
  split
  · exact .ite (fun _ => .refl) fun _ =>
      ((timeOutTag_moves t _ s).trans (controlFollow_moves s _)).trans (portFollow_moves _)
  all_goals exact .refl

theorem admitRequest_moves {n : Fin 32} {s : State} (free : ∀ e ∈ s.entries, e.num ≠ n) (r : Accepted)
    (fromList : Bool) : Moves s (admitRequest n r fromList s) := by
  have taken : Moves s (s.onUp fun u =>
      if fromList then { u with fenceList := u.fenceList.drop 1 } else { u with queue := u.queue.drop 1 }) := by
    cases fromList
    · exact onUp_moves _ s (by simp)
    · exact onUp_moves _ s (fenceList := by simp)
  exact (taken.trans (Moves.single (.enroll (newEntry n r) (by simpa [newEntry] using free)))).trans
    (runChain_moves _ _ _)

theorem freeEntry_free {s : State} {n : Fin 32} (h : freeEntry s = some n) : ∀ e ∈ s.entries, e.num ≠ n := by
  simpa using List.find?_some h

theorem execAdmission_movesOn (s : State) : MovesOn s (execAdmission s) := by
  refine event_movesOn ?_
  split
  · exact (admitRequest_moves (freeEntry_free ‹_›) _ _).trans ((takeOffered_moves _).trans (portFollow_moves _))
  · exact .refl

theorem deferrable_room {s : State} {h : Accepted} (hd : deferrable s = some h) : s.up.fenceList.length < 8 := by
  revert hd
  unfold deferrable
  split
  · simp
  · split
    · rename_i held
      exact fun _ => held.2.1
    · simp

theorem execFenceDeferral_movesOn (s : State) : MovesOn s (execFenceDeferral s) := by
  refine event_movesOn ?_
  split
  · exact .refl
  · exact ((Moves.single (.defer _ (deferrable_room ‹_›))).trans (onCounters_moves _ _)).trans
      ((takeOffered_moves _).trans (offerIfDue_moves _))

theorem takeResponse_moves (q : Nat) (s : State) : Moves s (takeResponse q s) := by
  unfold takeResponse
  split
  · refine Moves.trans (t := s.onEntries fun es => es.filter fun x => x.seq != q) ?_ (onUp_moves _ _)
    exact .of_shrinks (by constructor <;> simp +contextual [List.filter_sublist.map])
  split
  · exact onUp_moves _ s (refusals := List.length_filter_le _ _)
  · exact onUp_moves _ s

theorem execResponseTaken_movesOn (s : State) : MovesOn s (execResponseTaken s) := by
  refine event_movesOn ?_
  split
  · exact .refl
  · exact ((takeResponse_moves _ s).trans (takeOffered_moves _)).trans
      ((controlFollow_moves _ _).trans (portFollow_moves _))

theorem execMessageSent_movesOn (side : Side) (s : State) : MovesOn s (execMessageSent side s) :=
  event_movesOn (.single (.send side _ (.inr (by simp))))

/-! ### Commands of the management port -/

theorem configurable_iff {s : State} : configurable s = true ↔ Unrestricted s := by
  simp [configurable, and_assoc]

theorem checkLog_none {base watermark : Nat} {capacity : BitVec 32} {policy : Byte} {s : State}
    (h : checkLog base capacity policy watermark s = none) : Unrestricted s ∧ capacity.toNat ≤ 2 ^ 26 := by
  unfold checkLog at h
  split_ifs at h with restricted reserved fields meets
  rw [Bool.not_eq_false, configurable_iff] at restricted
  refine ⟨restricted, ?_⟩
  simp_all [isCapacity]

theorem execSetLog_movesOn (base : BitVec 40) (capacity : BitVec 32) (policy : Byte) (stallLimit : BitVec 16)
    (watermark : BitVec 32) (s : State) : MovesOn s (execSetLog base capacity policy stallLimit watermark s) := by
  refine onFrame_movesOn ?_
  split
  · exact .refl
  · rename_i passed
    obtain ⟨free, bound⟩ := checkLog_none passed
    exact .single (.configure _ _ _ _ _ free.1 bound)

theorem execSetCascade_movesOn (role last : Byte) (agreementLimit holdLimit : BitVec 16) (s : State) :
    MovesOn s (execSetCascade role last agreementLimit holdLimit s) := by
  refine onFrame_movesOn ?_
  split
  · exact .refl
  split
  · exact .refl
  split
  · exact .refl
  · rename_i free _ _ _ _
    obtain ⟨empty, idle, alone⟩ := configurable_iff.mp (by simpa using free)
    refine .of_shrinks ?_
    constructor <;> simp [done, empty]

theorem execSetDownstream_movesOn (limit host preserve restore : Byte) (timeout : BitVec 16) (s : State) :
    MovesOn s (execSetDownstream limit host preserve restore timeout s) := by
  refine onFrame_movesOn ?_
  split
  · exact .refl
  · exact (onDown_moves _ s (List.Sublist.refl _)).trans (grantIfDue_moves _)

theorem onCls_moves (f : Classifier → Classifier) (s : State) : Moves s (s.onCls f) :=
  .of_shrinks (by constructor <;> simp +contextual)

theorem execSetTriggers_movesOn (lineEnable : Byte) (interval : BitVec 16) (autoTake rolling : Byte) (s : State) :
    MovesOn s (execSetTriggers lineEnable interval autoTake rolling s) := by
  refine onFrame_movesOn ?_
  split
  · exact .refl
  · exact ((onCkpt_moves _ s).trans (latchIf_moves _ _ _)).trans
      ((triggerCheck_moves _).trans (portFollow_moves _))

theorem checkTake_none {s : State} (h : checkTake s = none) : s.ckpt.stack.length < 8 := by
  unfold checkTake at h
  split_ifs at h with _ _ _ _ _ full
  simpa [stackFull] using full

theorem execTake_movesOn (s : State) : MovesOn s (execTake s) := by
  refine onFrame_movesOn ?_
  split
  · exact .refl
  · exact Moves.trans (fun sound hs => startTake_path hs _ fun _ => checkTake_none ‹_›) (settle_moves _)

theorem execRelease_movesOn (n : Byte) (s : State) : MovesOn s (execRelease n s) := by
  refine onFrame_movesOn ?_
  split
  · exact .refl
  split
  · exact .refl
  · exact (releaseOldest_moves _ s).trans (portFollow_moves _)

theorem execRollback_movesOn (k : CkptNumber) (s : State) : MovesOn s (execRollback k s) := by
  refine onFrame_movesOn ?_
  split
  · exact .refl
  · have accepted : Moves s (acceptRollback k s) :=
      (beginRollback_moves k .command s).trans (agreeIfLeader_moves _ _ _ (by simp))
    exact accepted.trans ((controlFollow_moves _ _).trans (portFollow_moves _))

theorem execReleaseFence_movesOn (s : State) : MovesOn s (execReleaseFence s) := by
  refine onFrame_movesOn ?_
  split
  · exact (standDown_moves s).trans ((controlFollow_moves _ _).trans (portFollow_moves _))
  · exact .refl

/-- A frame whose command is refused with a status or answered without a change. -/
theorem onFrame_still_movesOn {s : State} {run : State → Answer} (h : (run s).state = s) :
    MovesOn s (onFrame s run) := onFrame_movesOn (by rw [h]; exact .refl)

theorem execReadUnrestored_movesOn (option : Option Byte) (s : State) : MovesOn s (execReadUnrestored option s) := by
  refine onFrame_movesOn ?_
  dsimp only
  split
  · exact .refl
  split
  · exact .refl
  split
  · exact .refl
  · exact clearUnrestored_moves s

theorem execClearCounters_movesOn (s : State) : MovesOn s (execClearCounters s) := by
  have cleared (u : State) : Moves u (u.onCasc fun c => { c with badCount := 0 }) :=
    .of_shrinks (by constructor <;> simp +contextual)
  exact onFrame_movesOn ((onCounters_moves _ s).trans (cleared _))

theorem exec_resets_moveOn (s : State) (q : Bool) :
    MovesOn s (execCommandResetEnd q s) ∧ MovesOn s (execPorstNAssert s) ∧ MovesOn s (execPorstNRelease q s)
      ∧ MovesOn s (execWrstNAssert s) ∧ MovesOn s (execWrstNRelease q s) :=
  ⟨.next (.ite (fun _ => (onPins_moves _ s).trans (resume_moves _ _)) fun _ => .refl),
    .next ((Moves.single .powerOn).trans (onPins_moves _ _)),
    .next (.ite (fun _ => (onPins_moves _ s).trans (resume_moves _ _)) fun _ => .refl),
    .next ((warmReset_moves s).trans (onPins_moves _ _)),
    .next (.ite (fun _ => (onPins_moves _ s).trans (resume_moves _ _)) fun _ => .refl)⟩

theorem execDownstreamRequestTaken_movesOn (s : State) :
    MovesOn s (execDownstreamRequestTaken s) := by
  refine event_movesOn ?_
  split
  · exact .refl
  · exact (takeDownRequest_moves _ s).trans (grantIfDue_moves _)

theorem execDownstreamResponse_movesOn (t : Fin 32) (kind : RwKind) (st : DownStatus) (data : LineData) (s : State) :
    MovesOn s (execDownstreamResponse t kind st data s) :=
  event_movesOn (((takeDownResponse_moves t kind st data s).trans (controlFollow_moves _ _)).trans
    (portFollow_moves _))

theorem execCommitWaitExit_movesOn (n : Fin 32) (s : State) :
    MovesOn s (execCommitWaitExit n s) :=
  event_movesOn (.ite (fun _ => (leaveCommitWait_moves n s).trans (grantIfDue_moves _)) fun _ => .refl)

theorem execTakeSettled_movesOn (s : State) :
    MovesOn s (execTakeSettled s) :=
  event_movesOn ((settleTake_moves s).trans (afterSettle_moves _ _))

theorem execTriggerTakeStart_movesOn (s : State) :
    MovesOn s (execTriggerTakeStart s) :=
  event_movesOn ((triggerCheck_moves s).trans (portFollow_moves _))

theorem execRollbackSettled_movesOn (s : State) :
    MovesOn s (execRollbackSettled s) :=
  event_movesOn ((settleRollback_moves s).trans (afterSettle_moves _ _))

theorem execBadMessage_movesOn (side : Side) (bytes : List Byte) (s : State) :
    MovesOn s (execBadMessage side bytes s) :=
  event_movesOn (.ite (fun _ => (Moves.single .badMessage).trans (latch_moves _ _)) fun _ => .refl)

theorem execPrepareReceived_movesOn (side : Side) (id : OpId) (kind : OpKind) (n : CkptNumber) (s : State) :
    MovesOn s (execPrepareReceived side id kind n s) :=
  event_movesOn (receive_moves fun used _ => handlePrepare_moves id kind n (follower_of_upUsed used))

theorem execReadyReceived_movesOn (side : Side) (id : OpId) (v : ReadyVerdict) (s : State) :
    MovesOn s (execReadyReceived side id v s) :=
  event_movesOn (receive_moves fun _ _ => handleReady_moves id v s)

theorem execGoReceived_movesOn (side : Side) (id : OpId) (n : CkptNumber) (s : State) :
    MovesOn s (execGoReceived side id n s) := by
  refine event_movesOn (receive_moves fun used formed => handleGo_moves id ?_ (follower_of_upUsed used))
  simpa [Message.wellFormed] using formed

theorem execAbandonReceived_movesOn (side : Side) (id : OpId) (s : State) :
    MovesOn s (execAbandonReceived side id s) :=
  event_movesOn (receive_moves fun _ _ => handleAbandon_moves id s)

theorem execDoneReceived_movesOn (side : Side) (id : OpId) (o : DoneOutcome) (s : State) :
    MovesOn s (execDoneReceived side id o s) :=
  event_movesOn (receive_moves fun _ _ => handleDone_moves id o s)

theorem execAskReceived_movesOn (side : Side) (src : AskSource) (s : State) :
    MovesOn s (execAskReceived side src s) :=
  event_movesOn (receive_moves fun _ _ => handleAsk_moves src s)

theorem execAgreementTimeout_movesOn (s : State) :
    MovesOn s (execAgreementTimeout s) := by
  refine event_movesOn ?_
  split
  · exact .refl
  · exact .ite (fun _ => ((produce_moves _ _ s).trans (endBeforeGo_moves _ _ _)).trans
      ((controlFollow_moves _ _).trans (portFollow_moves _))) fun _ => .refl

theorem execHoldTimeout_movesOn (s : State) :
    MovesOn s (execHoldTimeout s) := by
  refine event_movesOn ?_
  split
  · exact .refl
  · exact .ite (fun _ => leaveAgreement_moves _ _ s) fun _ => .refl

theorem execLeaderGo_movesOn (s : State) :
    MovesOn s (execLeaderGo s) :=
  event_movesOn (((leaderGo_moves s).trans (agreementEnd_moves _)).trans
    ((Moves.ite (fun _ => triggerCheck_moves _) fun _ => .refl).trans (portFollow_moves _)))

theorem execTransactionStart_movesOn (s : State) :
    MovesOn s (execTransactionStart s) :=
  .next (.ite (fun _ => .refl) fun _ => onMgmt_moves _ s)

theorem execTransactionEnd_movesOn (s : State) :
    MovesOn s (execTransactionEnd s) :=
  .next (.ite (fun _ => (onMgmt_moves _ s).trans (startPendingReset_moves _)) fun _ => .refl)

theorem execBadFrame_movesOn (bytes : List Byte) (s : State) :
    MovesOn s (execBadFrame bytes s) := by
  unfold execBadFrame
  split
  · exact onFrame_still_movesOn rfl
  · exact .next .refl

theorem execUnknownCommand_movesOn (bytes : List Byte) (s : State) :
    MovesOn s (execUnknownCommand bytes s) := by
  unfold execUnknownCommand
  split
  · exact onFrame_still_movesOn rfl
  · exact .next .refl

theorem done_state (s : State) : (done s).state = s := rfl

theorem execSetMemorySize_movesOn (size : BitVec 40) (s : State) :
    MovesOn s (execSetMemorySize size s) := by
  refine onFrame_movesOn ?_
  split
  · exact .refl
  · rw [done_state]
    exact onCls_moves _ s

theorem execSetWindow_movesOn (index enable : Byte) (base count : BitVec 40) (s : State) :
    MovesOn s (execSetWindow index enable base count s) := by
  refine onFrame_movesOn ?_
  split
  · exact .refl
  · rw [done_state]
    exact onCls_moves _ s

theorem execSetAlertMask_movesOn (mask : BitVec 16) (s : State) :
    MovesOn s (execSetAlertMask mask s) := by
  refine onFrame_movesOn ?_
  split
  · rw [done_state]
    exact onMgmt_moves _ s
  · exact .refl

theorem execClearAlerts_movesOn (causes : BitVec 16) (s : State) :
    MovesOn s (execClearAlerts causes s) := by
  refine onFrame_movesOn ?_
  split
  · rw [done_state]
    exact onMgmt_moves _ s
  · exact .refl

theorem execWarmReset_movesOn (s : State) : MovesOn s (execWarmReset s) := by
  refine onFrame_movesOn ?_
  rw [done_state]
  exact onMgmt_moves _ s

theorem exec_movesOn (c : Instr) (s : State) : MovesOn s (exec c s) := by
  cases c with
  | requestTaken r =>
    obtain ⟨t, ht, moves⟩ := event_movesOn (f := fun s => offerIfDue (takeOffered s))
      ((takeOffered_moves (s.onUp fun u => { u with offered := some (u.offered.getD r) })).trans
        (offerIfDue_moves _))
    exact ⟨t, ht, (onUp_moves _ s).trans moves⟩
  | admission => exact execAdmission_movesOn s
  | fenceDeferral => exact execFenceDeferral_movesOn s
  | grant => exact event_movesOn (grantIfDue_moves s)
  | downstreamRequestTaken => exact execDownstreamRequestTaken_movesOn s
  | downstreamResponse t kind st data => exact execDownstreamResponse_movesOn _ _ _ _ s
  | downstreamTimeout t => exact execDownstreamTimeout_movesOn t s
  | commitWaitExit n => exact execCommitWaitExit_movesOn _ s
  | responseOffer => exact event_movesOn (offerIfDue_moves s)
  | responseTaken => exact execResponseTaken_movesOn s
  | takeSettled => exact execTakeSettled_movesOn s
  | triggerTakeStart => exact execTriggerTakeStart_movesOn s
  | rollbackSettled => exact execRollbackSettled_movesOn s
  | stallLimitExpiry => exact execStallLimitExpiry_movesOn s
  | ckptReqRise => exact execCkptReqRise_movesOn s
  | intervalExpiry => exact execIntervalExpiry_movesOn s
  | messageSent side => exact execMessageSent_movesOn side s
  | badMessage side bytes => exact execBadMessage_movesOn _ _ s
  | prepareReceived side id kind n => exact execPrepareReceived_movesOn _ _ _ _ s
  | readyReceived side id v => exact execReadyReceived_movesOn _ _ _ s
  | goReceived side id n => exact execGoReceived_movesOn _ _ _ s
  | abandonReceived side id => exact execAbandonReceived_movesOn _ _ s
  | doneReceived side id o => exact execDoneReceived_movesOn _ _ _ s
  | askReceived side src => exact execAskReceived_movesOn _ _ s
  | agreementTimeout => exact execAgreementTimeout_movesOn s
  | holdTimeout => exact execHoldTimeout_movesOn s
  | leaderGo => exact execLeaderGo_movesOn s
  | readyOkSend => exact event_movesOn (readyOk_moves s)
  | doneSend => exact event_movesOn (doneSend_moves s)
  | transactionStart => exact execTransactionStart_movesOn s
  | transactionEnd => exact execTransactionEnd_movesOn s
  | badFrame bytes => exact execBadFrame_movesOn _ s
  | unknownCommand bytes => exact execUnknownCommand_movesOn _ s
  | identify | readStatus | readCheckpoints | readResult | readCounters => exact onFrame_still_movesOn rfl
  | setMemorySize size => exact execSetMemorySize_movesOn _ s
  | setWindow index enable base count => exact execSetWindow_movesOn _ _ _ _ s
  | setLog base capacity policy stallLimit watermark => exact execSetLog_movesOn _ _ _ _ _ s
  | setDownstream limit host preserve restore timeout => exact execSetDownstream_movesOn _ _ _ _ _ s
  | setTriggers lineEnable interval autoTake rolling => exact execSetTriggers_movesOn _ _ _ _ s
  | setCascade role last agreementLimit holdLimit => exact execSetCascade_movesOn _ _ _ _ s
  | take => exact execTake_movesOn s
  | release n => exact execRelease_movesOn n s
  | rollback k => exact execRollback_movesOn k s
  | releaseFence => exact execReleaseFence_movesOn s
  | readUnrestored option => exact execReadUnrestored_movesOn option s
  | clearCounters => exact execClearCounters_movesOn s
  | setAlertMask mask => exact execSetAlertMask_movesOn _ s
  | clearAlerts causes => exact execClearAlerts_movesOn _ s
  | warmReset => exact execWarmReset_movesOn s
  | commandResetEnd q => exact (exec_resets_moveOn s q).1
  | porstNAssert => exact (exec_resets_moveOn s true).2.1
  | porstNRelease q => exact (exec_resets_moveOn s q).2.2.1
  | wrstNAssert => exact (exec_resets_moveOn s true).2.2.2.1
  | wrstNRelease q => exact (exec_resets_moveOn s q).2.2.2.2

/-! ## Steps -/

theorem tickTag_num (u : TagUse) : (tickTag u).num = u.num := by
  unfold tickTag
  split <;> rfl

theorem passMicrosecond_moves (s : State) : Moves s (passMicrosecond s) := by
  have stall : Moves s (tickStall s) :=
    .ite (fun _ => .refl) fun _ => (onLog_moves _ s).trans (onCounters_moves _ _)
  have interval (u : State) : Moves u (u.onCkpt tickInterval) := by
    refine onCkpt_moves _ u ?_ ?_ ?_ <;> (unfold tickInterval; split_ifs <;> rfl)
  have tags (u : State) : Moves u (u.onDown fun d => { d with tags := d.tags.map tickTag }) := by
    refine onDown_moves _ u ?_
    simp [Function.comp_def, tickTag_num]
  exact .ite (fun _ => onPins_moves _ s) fun _ =>
    ((stall.trans (interval _)).trans (tags _)).trans (modAgreement_moves _ _)

/-- Every step is a sequence of moves. -/
theorem step_moves {s t : State} (h : step s = .next t) : Moves s t := by
  have on : MovesOn s (step s) := by
    unfold step
    split
    · rename_i c rest _
      obtain ⟨u, hu, moves⟩ := exec_movesOn c { s with pending := rest }
      exact ⟨u, hu, (Moves.of_shrinks (by constructor <;> simp +contextual)).trans moves⟩
    split
    · exact exec_movesOn _ s
    · exact .next (passMicrosecond_moves s)
  obtain ⟨u, hu, moves⟩ := on
  rw [hu] at h
  exact Host.Outcome.next.inj h ▸ moves

/-- A law that every move keeps is kept by every step. -/
theorem law_kept {law : State → Prop} (h : ∀ {s t}, Move False s t → law s → law t) {s t : State} (hs : law s)
    (stepped : step s = .next t) : law t := by
  have path := step_moves stepped False False.elim
  clear stepped
  induction path with
  | refl => exact hs
  | tail _ move ih => exact h move ih

end Sys2Proof.Machine
end

section
/-! The laws of the part: each is kept by every move, so by every step. -/

namespace Sys2Proof.Machine

-- One declaration at a time: elaborated in parallel, many quick ones exceed the memory limit.
set_option Elab.async false

/-! ## Capacities -/

theorem nodup_map_append {α β : Type} {f : α → β} {l : List α} {a : α} (h : (l.map f).Nodup)
    (free : ∀ x ∈ l, f x ≠ f a) : ((l ++ [a]).map f).Nodup := by
  rw [List.map_append]
  exact h.append (by simp) (by simpa [List.Disjoint] using free)

theorem withinCapacity_shrinks {sound : Prop} {s t : State} (h : Shrinks sound s t)
    (law : WithinCapacity s) : WithinCapacity t := by
  obtain ⟨queue, fenceList, refusals, entries, tags, upList, downList, unrestored, lines, overflow, bad⟩ := law
  exact ⟨h.queue.trans queue, h.fenceList.trans fenceList, h.refusals.trans refusals, entries.sublist h.entries,
    tags.sublist h.tags, h.upList.trans upList, h.downList.trans downList,
    h.unrestored.length_le.trans unrestored, lines.sublist h.unrestored, h.overflow.trans overflow,
    h.badCount.trans bad⟩

theorem withinCapacity_request {s : State} (r : HostRequest) (room : portHasRoom s.up = true)
    (law : WithinCapacity s) : WithinCapacity (takeRequest r s) := by
  obtain ⟨queueRoom, refusalRoom⟩ : s.up.queue.length < 16 ∧ s.up.refusals.length < 4 := by
    simpa [portHasRoom] using room
  obtain ⟨queue, fenceList, refusals, rest⟩ := law
  have lists : (takeRequest r s).up.queue.length ≤ 16 ∧ (takeRequest r s).up.refusals.length ≤ 4 := by
    unfold takeRequest
    split
    · simp; omega
    · simp; omega
  exact ⟨lists.1, by simpa using fenceList, lists.2, by simpa using rest⟩

theorem withinCapacity_unrestored {s : State} (line : Nat) (law : WithinCapacity s) :
    WithinCapacity (addUnrestored line s) := by
  rw [addUnrestored_fields]
  obtain ⟨queue, fenceList, refusals, entries, tags, upList, downList, unrestored, lines, overflow, bad⟩ := law
  refine ⟨queue, fenceList, refusals, entries, tags, upList, downList, ?_, ?_, ?_, bad⟩
  · dsimp only
    split_ifs with h
    · simp; omega
    · exact unrestored
  · dsimp only
    split_ifs with h
    · exact lines.append (by simp) (by simpa using h.2)
    · exact lines
  · dsimp only
    split_ifs <;> omega

theorem withinCapacity_move {sound : Prop} {s t : State} (h : Move sound s t) (law : WithinCapacity s) :
    WithinCapacity t := by
  cases h with
  | shrink h => exact withinCapacity_shrinks h law
  | request r room => exact withinCapacity_request r room law
  | defer r room =>
    obtain ⟨queue, fenceList, rest⟩ := law
    exact ⟨by simp; omega, by simp; omega, rest⟩
  | enroll e free =>
    obtain ⟨queue, fenceList, refusals, entries, rest⟩ := law
    exact ⟨queue, fenceList, refusals, nodup_map_append entries free, rest⟩
  | grant u free =>
    obtain ⟨queue, fenceList, refusals, entries, tags, rest⟩ := law
    exact ⟨queue, fenceList, refusals, entries, nodup_map_append tags free, rest⟩
  | send side l room =>
    obtain ⟨queue, fenceList, refusals, entries, tags, upList, downList, rest⟩ := law
    refine ⟨queue, fenceList, refusals, entries, tags, ?_, ?_, by simpa using rest⟩
    all_goals cases side <;> simp only [setSendList, sendList, State.onCasc] at * <;> omega
  | badMessage =>
    obtain ⟨queue, fenceList, refusals, entries, tags, upList, downList, unrestored, lines, overflow, bad⟩ := law
    exact ⟨queue, fenceList, refusals, entries, tags, upList, downList, unrestored, lines, overflow, by simp⟩
  | unrestored line => exact withinCapacity_unrestored line law
  | push n src room number ended h => exact withinCapacity_shrinks h (by simpa [pushCkpt_fields] using law)
  | powerOn =>
    exact ⟨Nat.zero_le _, Nat.zero_le _, Nat.zero_le _, .nil, .nil, Nat.zero_le _, Nat.zero_le _, Nat.zero_le _, .nil,
      Nat.zero_le _, Nat.zero_le _⟩
  | insert | reserve | pass | breakLive | skipNumber | release | truncate | configure | abandon =>
    simpa [WithinCapacity, dropOldest, cutBack, markBroken] using law

/-- Settles O6: each move keeps the capacities, by the guard under which it adds to a list. -/
theorem capacitiesKept : Obligations.CapacitiesKept := fun _ _ law stepped =>
  law_kept withinCapacity_move law stepped

/-! ## The preservation filter -/

theorem filterLaw_sublist {s t : State} (h : t.filter.Sublist s.filter) (law : FilterLaw s) : FilterLaw t :=
  ⟨law.1.sublist (h.map _), law.2.sublist (h.map _)⟩

theorem mem_setWays {line : Nat} {f : List FilterWay} {w : FilterWay} :
    w ∈ setWays line f ↔ w ∈ f ∧ filterSet w.line = filterSet line := by simp [setWays]

/-- An insert of a line already named rewrites the way that names it (R49). -/
theorem victim_named {line : Nat} {f : List FilterWay} (h : (f.map FilterWay.line).Nodup) {w : FilterWay}
    (mem : w ∈ f) (named : w.line = line) (generation : BitVec 16) :
    (victim line generation (setWays line f)).1 = w.way := by
  have found : (setWays line f).find? (fun w => w.line == line) = some w := by
    have some : ((setWays line f).find? (fun w => w.line == line)).isSome :=
      List.find?_isSome.mpr ⟨w, mem_setWays.mpr ⟨mem, by rw [named]⟩, by simp [named]⟩
    obtain ⟨x, hx⟩ := Option.isSome_iff_exists.mp some
    have same : x.line = w.line := by simpa [named] using List.find?_some hx
    rw [hx, List.inj_on_of_nodup_map h (mem_setWays.mp (List.mem_of_find?_eq_some hx)).1 mem same]
  simp [victim, found]

theorem filterInsert_filter (line : Nat) (s : State) : (filterInsert line s).filter
    = s.filter.filter (fun w => !(filterSet w.line == filterSet line
        && w.way == (victim line s.ckpt.generation (setWays line s.filter)).1))
      ++ [⟨(victim line s.ckpt.generation (setWays line s.filter)).1, line, s.ckpt.generation⟩] := by
  unfold filterInsert
  dsimp only
  split <;> simp

theorem filterLaw_insert {s : State} (line : Nat) (law : FilterLaw s) : FilterLaw (filterInsert line s) := by
  obtain ⟨ways, lines⟩ := law
  rw [FilterLaw, filterInsert_filter]
  constructor
  · refine nodup_map_append (ways.sublist (List.filter_sublist.map _)) fun w mem => ?_
    have kept := (List.mem_filter.mp mem).2
    simpa [imp_iff_not_or] using kept
  · refine nodup_map_append (lines.sublist (List.filter_sublist.map _)) fun w mem named => ?_
    obtain ⟨old, kept⟩ := List.mem_filter.mp mem
    rw [victim_named lines old named] at kept
    simp [show w.line = line from named] at kept

theorem filterLaw_move {sound : Prop} {s t : State} (h : Move sound s t) (law : FilterLaw s) : FilterLaw t := by
  cases h with
  | shrink h => exact filterLaw_sublist h.filter law
  | insert line => exact filterLaw_insert line law
  | push n src room number ended h =>
    refine filterLaw_sublist (h.filter.trans ?_) law
    rw [pushCkpt_fields]
    dsimp only
    split_ifs
    · exact List.nil_sublist _
    · exact List.Sublist.refl _
  | powerOn => exact ⟨.nil, .nil⟩
  | request | defer | enroll | grant | send | badMessage | unrestored | reserve | pass | breakLive | skipNumber
  | release | truncate | configure | abandon =>
    simpa [FilterLaw, dropOldest, cutBack, markBroken] using law

/-- Settles O9: an insert takes out the way it writes, which is the line's own where the line has one. -/
theorem filterLawKept : Obligations.FilterLawKept := fun _ _ law stepped =>
  law_kept filterLaw_move law stepped

/-! ## The checkpoint stack -/

theorem numberHeld_iff {n : CkptNumber} {stack : List CkptRecord} :
    numberHeld n stack = true ↔ n ∈ stack.map CkptRecord.number := by simp [numberHeld, List.mem_map]

theorem numberHeld_eq_false {n : CkptNumber} {stack : List CkptRecord} :
    numberHeld n stack = false ↔ ∀ r ∈ stack, r.number ≠ n := by simp [numberHeld]

theorem succNumber_ne_zero (n : CkptNumber) : succNumber n ≠ 0 := by
  unfold succNumber
  split <;> bv_omega

theorem firstFree_ne_zero {stack : List CkptRecord} {k : Nat} {n : CkptNumber} (h : n ≠ 0) :
    firstFree stack k n ≠ 0 := by
  induction k generalizing n with
  | zero => exact h
  | succ k ih =>
    unfold firstFree
    split
    · exact ih (succNumber_ne_zero n)
    · exact h

/-- The k-th number from n on. -/
def numberFrom (n : CkptNumber) : Nat → CkptNumber
  | 0 => n
  | k + 1 => numberFrom (succNumber n) k

/-- The search ends on a number no record holds, or each of the numbers it went through is held. -/
theorem firstFree_spec (stack : List CkptRecord) (k : Nat) (n : CkptNumber) :
    numberHeld (firstFree stack k n) stack = false ∨ ∀ i ≤ k, numberHeld (numberFrom n i) stack = true := by
  induction k generalizing n with
  | zero =>
    cases h : numberHeld n stack with
    | false => exact .inl h
    | true => exact .inr fun i hi => by simpa [Nat.le_zero.mp hi, numberFrom] using h
  | succ k ih =>
    unfold firstFree
    split
    · rename_i held
      refine (ih (succNumber n)).imp_right fun all i hi => ?_
      cases i with
      | zero => exact held
      | succ i => exact all i (by omega)
    · rename_i free
      exact .inl (by simpa using free)

/-- The numbers go round a cycle of 65535, 1 following 65535 (R4). -/
theorem numberFrom_toNat {n : CkptNumber} (h : n ≠ 0) (i : Nat) :
    (numberFrom n i).toNat = (n.toNat - 1 + i) % 65535 + 1 := by
  induction i generalizing n with
  | zero =>
    have := n.isLt
    have : n.toNat ≠ 0 := fun e => h (BitVec.eq_of_toNat_eq (by simpa using e))
    simp only [numberFrom]
    omega
  | succ i ih =>
    have := n.isLt
    have : n.toNat ≠ 0 := fun e => h (BitVec.eq_of_toNat_eq (by simpa using e))
    have next : (succNumber n).toNat = n.toNat % 65535 + 1 := by
      unfold succNumber
      split <;> bv_omega
    rw [numberFrom, ih (succNumber_ne_zero n), next]
    omega

theorem numberFrom_ne_zero {n : CkptNumber} (h : n ≠ 0) (i : Nat) : numberFrom n i ≠ 0 := by
  intro zero
  have := numberFrom_toNat h i
  simp [zero] at this

theorem numberFrom_injOn {n : CkptNumber} {i j : Nat} (hi : i < 65535) (hj : j < 65535)
    (same : numberFrom n i = numberFrom n j) : i = j := by
  by_cases h : n = 0
  · subst h
    cases i with
    | zero =>
      cases j with
      | zero => rfl
      | succ j => exact absurd same.symm (numberFrom_ne_zero (succNumber_ne_zero 0) j)
    | succ i =>
      cases j with
      | zero => exact absurd same (numberFrom_ne_zero (succNumber_ne_zero 0) i)
      | succ j =>
        have := congrArg BitVec.toNat same
        rw [numberFrom, numberFrom, numberFrom_toNat (succNumber_ne_zero 0),
          numberFrom_toNat (succNumber_ne_zero 0)] at this
        simp only [succNumber] at this
        omega
  · have := congrArg BitVec.toNat same
    rw [numberFrom_toNat h, numberFrom_toNat h] at this
    omega

theorem length_of_held {stack : List CkptRecord} {n : CkptNumber} {k : Nat} (bound : k < 65535)
    (held : ∀ i ≤ k, numberHeld (numberFrom n i) stack = true) : k < stack.length := by
  have distinct : ((List.range (k + 1)).map (numberFrom n)).Nodup :=
    List.nodup_range.map_on fun i hi j hj same =>
      numberFrom_injOn (by rw [List.mem_range] at hi; omega) (by rw [List.mem_range] at hj; omega) same
  have within : (List.range (k + 1)).map (numberFrom n) ⊆ stack.map CkptRecord.number := by
    intro x hx
    obtain ⟨i, hi, rfl⟩ := List.mem_map.mp hx
    exact numberHeld_iff.mp (held i (by rw [List.mem_range] at hi; omega))
  simpa using (distinct.subperm within).length_le

/-- Among one more numbers than there are records, one is free. -/
theorem numberHeld_assignedNumber {s : State} (bound : s.ckpt.stack.length ≤ 8) :
    numberHeld (assignedNumber s) s.ckpt.stack = false := by
  refine (firstFree_spec s.ckpt.stack s.ckpt.stack.length s.ckpt.nextNumber).resolve_right fun held => ?_
  have := length_of_held (by omega) held
  omega

theorem assignedNumber_ne_zero {s : State} (h : s.ckpt.nextNumber ≠ 0) : assignedNumber s ≠ 0 :=
  firstFree_ne_zero h

theorem assignedNumber_of_free {s : State} (free : ∀ r ∈ s.ckpt.stack, r.number ≠ s.ckpt.nextNumber) :
    assignedNumber s = s.ckpt.nextNumber := by
  have notHeld := numberHeld_eq_false.mpr free
  unfold assignedNumber firstFree
  split
  · rfl
  · simp [notHeld]

/-- Settles O13: the search has one more numbers to try than records stand on the stack. -/
theorem assignedNumber_spec : Obligations.AssignedNumber := fun _ bound =>
  ⟨assignedNumber_of_free, numberHeld_eq_false.mp (numberHeld_assignedNumber bound), assignedNumber_ne_zero⟩

/-- BROKEN records stand at the oldest end just where no record older than a BROKEN one is LIVE. -/
theorem brokenOldest_iff (l : List CkptRecord) :
    (∀ r ∈ l.dropWhile (fun r => r.state == .broken), r.state = .live)
      ↔ (l.map CkptRecord.state).Pairwise (fun older newer => newer = .broken → older = .broken) := by
  induction l with
  | nil => simp
  | cons r l ih =>
    rw [List.map_cons, List.pairwise_cons]
    cases h : r.state with
    | broken => simp [h, ih]
    | live =>
      have allLive : (∀ x ∈ l, x.state = .live) ↔ ∀ x ∈ l, x.state ≠ .broken := by
        refine forall₂_congr fun x _ => ?_
        cases x.state <;> simp
      rw [List.dropWhile_cons, if_neg (by simp [h]), List.forall_mem_cons, allLive]
      refine ⟨fun live => ⟨?_, ?_⟩, fun live => ⟨h, ?_⟩⟩
      · exact List.forall_mem_map.mpr fun x hx broken => absurd broken (live.2 x hx)
      · refine List.pairwise_map.mpr (List.pairwise_of_forall_mem_list fun x _ y hy broken => ?_)
        exact absurd broken (live.2 y hy)
      · exact fun x hx broken => by simpa using live.1 _ (List.mem_map_of_mem hx) broken

/-- The law of the stack of one list and the next number: the parts of StackLaw besides the depth. -/
structure Numbered (stack : List CkptRecord) (next : CkptNumber) : Prop where
  distinct : (stack.map CkptRecord.number).Nodup
  nonzero : ∀ n ∈ stack.map CkptRecord.number, n ≠ 0
  next : next ≠ 0
  brokenOldest : (stack.map CkptRecord.state).Pairwise fun older newer => newer = .broken → older = .broken

theorem stackLaw_iff (s : State) : StackLaw s ↔ Depth s ∧ Numbered s.ckpt.stack s.ckpt.nextNumber := by
  rw [StackLaw, brokenOldest_iff, takeUnderWay_eq]
  constructor
  · intro ⟨bound, room, distinct, nonzero, next, oldest⟩
    exact ⟨⟨bound, room⟩, distinct, by simpa using nonzero, next, oldest⟩
  · intro ⟨⟨bound, room⟩, distinct, nonzero, next, oldest⟩
    exact ⟨bound, room, distinct, by simpa using nonzero, next, oldest⟩

theorem Numbered.sublist {stack stack' : List CkptRecord} {n : CkptNumber} (h : Numbered stack n)
    (sub : stack'.Sublist stack) : Numbered stack' n :=
  ⟨h.distinct.sublist (sub.map _), fun k mem => h.nonzero k ((sub.map _).subset mem), h.next,
    h.brokenOldest.sublist (sub.map _)⟩

/-- What keeps the numbers and the states of the records keeps the law. -/
theorem Numbered.of_map_eq {stack stack' : List CkptRecord} {n : CkptNumber} (h : Numbered stack n)
    (numbers : stack'.map CkptRecord.number = stack.map CkptRecord.number)
    (states : stack'.map CkptRecord.state = stack.map CkptRecord.state) : Numbered stack' n :=
  ⟨numbers ▸ h.distinct, numbers ▸ h.nonzero, h.next, states ▸ h.brokenOldest⟩

theorem Numbered.push {stack : List CkptRecord} {n : CkptNumber} (h : Numbered stack n) {k : CkptNumber}
    (nonzero : k ≠ 0) (free : numberHeld k stack = false) (mark : Position) (src : Source) :
    Numbered (stack ++ [⟨k, mark, .live, 0, src⟩]) (succNumber k) where
  distinct := nodup_map_append h.distinct (numberHeld_eq_false.mp free)
  nonzero := by
    rw [List.map_append, List.forall_mem_append]
    exact ⟨h.nonzero, by simpa using nonzero⟩
  next := succNumber_ne_zero k
  brokenOldest := by simpa [List.pairwise_append] using h.brokenOldest

theorem numbered_move {s t : State} (h : Move True s t) (depth : Depth s)
    (law : Numbered s.ckpt.stack s.ckpt.nextNumber) : Numbered t.ckpt.stack t.ckpt.nextNumber := by
  cases h with
  | shrink h => rwa [h.stack, h.nextNumber]
  | push n src room number ended h =>
    have free : n ≠ 0 ∧ numberHeld n s.ckpt.stack = false := by
      rcases number with rfl | free
      · exact ⟨assignedNumber_ne_zero law.next, numberHeld_assignedNumber depth.bound⟩
      · exact free
    rw [h.stack, h.nextNumber, pushCkpt_fields]
    exact law.push free.1 free.2 _ _
  | skipNumber n => exact { law with next := succNumber_ne_zero n }
  | release n => exact law.sublist (List.drop_sublist n _)
  | truncate k r found =>
    obtain ⟨newer, split⟩ := stack_cutBack found
    rw [split] at law
    refine (law.sublist (stack' := s.ckpt.stack.takeWhile (fun x => x.number != k) ++ [r]) ?_).of_map_eq ?_ ?_
    · simp
    · simp [cutBack]
    · simp [cutBack]
  | pass o =>
    refine Numbered.of_map_eq (by simpa using law) ?_ ?_
    · rw [passHead_stack, modCurrent_map (by intro _; rfl)]
    · rw [passHead_stack, modCurrent_map (by intro _; rfl)]
  | breakLive =>
    exact { law with
      distinct := by simpa [markBroken, Function.comp_def] using law.distinct
      nonzero := by simpa [markBroken] using law.nonzero
      brokenOldest := by simp [markBroken, Function.comp_def] }
  | powerOn => exact ⟨List.nodup_nil, nofun, (by decide : (1 : CkptNumber) ≠ 0), List.Pairwise.nil⟩
  | request | defer | enroll | grant | send | badMessage | unrestored | insert | reserve | configure | abandon =>
    simpa using law

theorem stackLaw_move {s t : State} (h : Move True s t) (law : StackLaw s) : StackLaw t := by
  rw [stackLaw_iff] at law ⊢
  exact ⟨h.depth trivial law.1, numbered_move h law.1 law.2⟩

/-- Settles O7: a take under way keeps room for its push, so that each move keeps the law. -/
theorem stackLawKept : Obligations.StackLawKept := by
  intro s t law stepped
  have path := step_moves stepped True fun _ => ((stackLaw_iff s).mp law).1
  clear stepped
  induction path with
  | refl => exact law
  | tail _ move ih => exact stackLaw_move move ih

end Sys2Proof.Machine
end

section
/-! The law of the log's positions and of the records fields: every move keeps it. -/

namespace Sys2Proof.Machine

-- One declaration at a time: elaborated in parallel, many quick ones exceed the memory limit.
set_option Elab.async false

/-! ## Distances -/

theorem sub_toNat_rebase {t t' x : Position} (h : (t' - t).toNat ≤ (x - t).toNat) :
    (x - t').toNat = (x - t).toNat - (t' - t).toNat := by bv_omega

theorem succ_sub_toNat {t x : Position} (h : (x - t).toNat < 2 ^ 26) : (x + 1 - t).toNat = (x - t).toNat + 1 := by
  bv_omega

/-- Distances in order from one position are in order from the first of them. -/
theorem pairwise_rebase {t t' : Position} {l : List Position}
    (h : ((t' :: l).map fun x => (x - t).toNat).Pairwise (· ≤ ·)) :
    ((t' :: l).map fun x => (x - t').toNat).Pairwise (· ≤ ·) := by
  rw [List.map_cons, List.pairwise_cons, List.forall_mem_map] at h
  obtain ⟨first, rest⟩ := h
  rw [List.map_cons, List.pairwise_cons]
  refine ⟨fun d _ => by simp, List.pairwise_map.mpr ?_⟩
  refine (List.pairwise_map.mp rest).imp_of_mem fun {x y} hx hy le => ?_
  rw [sub_toNat_rebase (first x hx), sub_toNat_rebase (first y hy)]
  omega

/-- The last distance may grow. -/
theorem pairwise_grow_last {l : List Nat} {a b : Nat} (h : (l ++ [a]).Pairwise (· ≤ ·)) (le : a ≤ b) :
    (l ++ [b]).Pairwise (· ≤ ·) := by
  rw [List.pairwise_append] at h ⊢
  obtain ⟨init, _, last⟩ := h
  exact ⟨init, List.pairwise_singleton _ _, by simpa using fun x hx => (last x hx a (by simp)).trans le⟩

/-- The last distance may stand once more. -/
theorem pairwise_repeat_last {l : List Nat} {a : Nat} (h : (l ++ [a]).Pairwise (· ≤ ·)) :
    (l ++ [a, a]).Pairwise (· ≤ ·) := by
  rw [List.pairwise_append] at h ⊢
  obtain ⟨init, _, last⟩ := h
  exact ⟨init, by simp, by simpa using last⟩

/-! ## The law as one list of positions -/

/-- The marks from the oldest on, and head. -/
def bounds (stack : List CkptRecord) (head : Position) : List Position := stack.map CkptRecord.mark ++ [head]

/-- The position law with its positions in one list: tail is the first, and their distances from it are in
order up to allocated. -/
structure Ordered (stack : List CkptRecord) (tail head allocated : Position) (capacity : Nat) : Prop where
  first : ∃ rest, bounds stack head = tail :: rest
  sorted : ((bounds stack head ++ [allocated]).map fun x => (x - tail).toNat).Pairwise (· ≤ ·)
  occupied : (allocated - tail).toNat ≤ capacity
  bound : capacity ≤ 2 ^ 26

theorem positionLaw_iff (s : State) :
    PositionLaw s ↔ Ordered s.ckpt.stack s.log.tail s.log.head s.log.allocated s.log.capacity := by
  have sorted : ((bounds s.ckpt.stack s.log.head ++ [s.log.allocated]).map fun x => (x - s.log.tail).toNat).Pairwise (· ≤ ·)
      ↔ (s.ckpt.stack.map fun r => (r.mark - s.log.tail).toNat).Pairwise (· ≤ ·)
        ∧ (∀ r ∈ s.ckpt.stack, (r.mark - s.log.tail).toNat ≤ (s.log.head - s.log.tail).toNat)
        ∧ (s.log.head - s.log.tail).toNat ≤ (s.log.allocated - s.log.tail).toNat := by
    simp only [bounds, List.map_append, List.map_map, List.pairwise_append, List.map_cons, List.map_nil,
      List.pairwise_singleton, List.mem_append, List.mem_map, List.mem_singleton, Function.comp_def]
    constructor
    · rintro ⟨⟨marks, -, head⟩, -, allocated⟩
      exact ⟨marks, fun r hr => head _ ⟨r, hr, rfl⟩ _ rfl, allocated _ (.inr rfl) _ rfl⟩
    · rintro ⟨marks, head, allocated⟩
      refine ⟨⟨marks, trivial, ?_⟩, trivial, ?_⟩
      · rintro _ ⟨r, hr, rfl⟩ _ rfl
        exact head r hr
      · rintro _ (⟨r, hr, rfl⟩ | rfl) _ rfl
        · exact (head r hr).trans allocated
        · exact allocated
  have first : (∃ rest, bounds s.ckpt.stack s.log.head = s.log.tail :: rest)
      ↔ (s.ckpt.stack = [] → s.log.tail = s.log.head) ∧ ∀ r ∈ s.ckpt.stack.head?, r.mark = s.log.tail := by
    cases s.ckpt.stack with
    | nil => simp [bounds, eq_comm]
    | cons r rest => simp [bounds]
  constructor
  · intro ⟨head, occupied, bound, empty, oldest, marks, below⟩
    exact ⟨first.mpr ⟨empty, oldest⟩, sorted.mpr ⟨marks, below, head⟩, occupied, bound⟩
  · intro law
    obtain ⟨empty, oldest⟩ := first.mp law.first
    obtain ⟨marks, below, head⟩ := sorted.mp law.sorted
    exact ⟨head, law.occupied, law.bound, empty, oldest, marks, below⟩

section
variable {stack : List CkptRecord} {tail head allocated : Position} {capacity : Nat}

theorem Ordered.of_marks (h : Ordered stack tail head allocated capacity) {stack' : List CkptRecord}
    (marks : stack'.map CkptRecord.mark = stack.map CkptRecord.mark) :
    Ordered stack' tail head allocated capacity := by
  have same : bounds stack' head = bounds stack head := by rw [bounds, marks, bounds]
  exact ⟨same ▸ h.first, same ▸ h.sorted, h.occupied, h.bound⟩

theorem Ordered.head_le (h : Ordered stack tail head allocated capacity) :
    (head - tail).toNat ≤ (allocated - tail).toNat := by
  have := h.sorted
  rw [List.map_append, List.pairwise_append] at this
  exact this.2.2 _ (List.mem_map_of_mem (by simp [bounds])) _ (by simp)

theorem Ordered.mark_le (h : Ordered stack tail head allocated capacity) {r : CkptRecord} (hr : r ∈ stack) :
    (r.mark - tail).toNat ≤ (head - tail).toNat := by
  have := h.sorted
  rw [bounds, List.append_assoc, List.map_append, List.pairwise_append] at this
  exact this.2.2 _ (List.mem_map_of_mem (List.mem_map_of_mem hr)) _ (by simp)

theorem Ordered.reserve (h : Ordered stack tail head allocated capacity)
    (room : (allocated - tail).toNat ≠ capacity) : Ordered stack tail head (allocated + 1) capacity := by
  have below : (allocated - tail).toNat < capacity := by have := h.occupied; omega
  have grown := succ_sub_toNat (below.trans_le h.bound)
  refine ⟨h.first, ?_, by omega, h.bound⟩
  have sorted := h.sorted
  rw [List.map_append] at sorted ⊢
  exact pairwise_grow_last sorted (by simp only; omega)

theorem Ordered.abandon (h : Ordered stack tail head allocated capacity) : Ordered stack tail head head capacity := by
  refine ⟨h.first, ?_, h.head_le.trans h.occupied, h.bound⟩
  have sorted := h.sorted
  rw [List.map_append] at sorted
  have marks := sorted.sublist (List.sublist_append_left _ _)
  rw [bounds, List.map_append] at marks
  rw [bounds, List.append_assoc, List.map_append]
  exact pairwise_repeat_last marks

theorem Ordered.push (h : Ordered stack tail head allocated capacity) {r : CkptRecord} (mark : r.mark = head) :
    Ordered (stack ++ [r]) tail head allocated capacity := by
  obtain ⟨rest, first⟩ := h.first
  refine ⟨⟨rest ++ [head], by rw [← List.cons_append, ← first]; simp [bounds, mark]⟩, ?_, h.occupied, h.bound⟩
  have marks := h.abandon.sorted
  have pairs := h.sorted
  simp only [bounds, List.map_append, mark, List.append_assoc, List.map_cons, List.map_nil] at marks pairs ⊢
  rw [List.pairwise_append] at pairs ⊢
  obtain ⟨init, last, all⟩ := pairs
  exact ⟨init, by simpa using h.head_le, by simpa using all⟩

theorem bounds_drop (n : Nat) : ∃ dropped, bounds stack head = dropped ++ bounds (stack.drop n) head :=
  ⟨(stack.take n).map CkptRecord.mark, by
    rw [bounds, bounds, ← List.append_assoc, ← List.map_append, List.take_append_drop]⟩

theorem bounds_first : ∃ rest, bounds stack head = (match stack.head? with
    | some r => r.mark
    | none => head) :: rest := by
  cases stack with
  | nil => exact ⟨[], rfl⟩
  | cons r rest => exact ⟨rest.map CkptRecord.mark ++ [head], rfl⟩

theorem Ordered.release (h : Ordered stack tail head allocated capacity) (n : Nat) {tail' : Position}
    (new : ∃ rest, bounds (stack.drop n) head = tail' :: rest) :
    Ordered (stack.drop n) tail' head allocated capacity := by
  obtain ⟨dropped, split⟩ := bounds_drop (stack := stack) (head := head) n
  obtain ⟨rest, first⟩ := new
  have sorted := h.sorted
  rw [split, List.append_assoc, List.map_append] at sorted
  have kept := sorted.sublist (List.sublist_append_right _ _)
  rw [first, List.cons_append] at kept
  have nearer : (tail' - tail).toNat ≤ (allocated - tail).toNat := by
    rw [List.map_cons, List.pairwise_cons] at kept
    exact kept.1 _ (List.mem_map_of_mem (by simp))
  refine ⟨⟨rest, first⟩, ?_, ?_, h.bound⟩
  · rw [first, List.cons_append]
    exact pairwise_rebase kept
  · rw [sub_toNat_rebase nearer]
    have := h.occupied
    omega

theorem Ordered.truncate {older newer : List CkptRecord} {r r' : CkptRecord}
    (h : Ordered (older ++ r :: newer) tail head allocated capacity) (mark : r'.mark = r.mark) :
    Ordered (older ++ [r']) tail r.mark r.mark capacity := by
  have sorted := h.sorted
  have older_sorted : (bounds older r.mark).map (fun x => (x - tail).toNat) |>.Pairwise (· ≤ ·) := by
    refine sorted.sublist (List.Sublist.map _ ?_)
    simp [bounds]
  have first : ∃ rest, bounds older r.mark = tail :: rest := by
    obtain ⟨rest, first⟩ := h.first
    cases older with
    | nil => exact ⟨[], by simp [bounds] at first ⊢; exact first.1⟩
    | cons x older => exact ⟨older.map CkptRecord.mark ++ [r.mark], by simp [bounds] at first ⊢; exact first.1⟩
  have below : (r.mark - tail).toNat ≤ capacity :=
    ((h.mark_le (by simp)).trans h.head_le).trans h.occupied
  have cut : Ordered older tail r.mark r.mark capacity :=
    ⟨first, by
      rw [bounds, List.map_append] at older_sorted
      rw [bounds, List.append_assoc, List.map_append]
      exact pairwise_repeat_last older_sorted, below, h.bound⟩
  exact cut.push mark

theorem Ordered.pass (h : Ordered stack tail head allocated capacity) (below : head ≠ allocated) :
    Ordered stack (if stack.isEmpty then head + 1 else tail) (head + 1) allocated capacity := by
  have lt : (head - tail).toNat < (allocated - tail).toNat := by
    refine lt_of_le_of_ne h.head_le fun same => below ?_
    bv_omega
  have grown := succ_sub_toNat (x := head) (t := tail) (by have := h.occupied; have := h.bound; omega)
  have sorted := h.sorted
  cases stack with
  | nil =>
    refine ⟨⟨[], rfl⟩, by simp [bounds], ?_, h.bound⟩
    rw [List.isEmpty_nil, if_pos rfl, sub_toNat_rebase (t := tail) (by omega)]
    have := h.occupied
    omega
  | cons r rest =>
    obtain ⟨others, first⟩ := h.first
    refine ⟨⟨rest.map CkptRecord.mark ++ [head + 1], by simpa [bounds] using
      (by simpa [bounds] using first : r.mark = tail ∧ _).1⟩, ?_, h.occupied, h.bound⟩
    rw [List.isEmpty_cons, if_neg (by simp)]
    rw [bounds, List.append_assoc, List.map_append, List.pairwise_append] at sorted ⊢
    obtain ⟨marks, -, le⟩ := sorted
    have top (d : Nat) (hd : d ∈ (List.map CkptRecord.mark (r :: rest)).map fun x => (x - tail).toNat) :
        d ≤ (head - tail).toNat := le d hd _ (by simp)
    refine ⟨marks, ?_, fun d hd e he => ?_⟩
    · simp only [List.cons_append, List.nil_append, List.map_cons, List.map_nil, List.pairwise_pair]
      omega
    · have := top d hd
      simp only [List.cons_append, List.nil_append, List.map_cons, List.map_nil, List.mem_cons,
        List.not_mem_nil, or_false] at he
      omega

end

/-! ## The records fields -/

/-- The mark after a record: the next one's, or head. -/
def nextBound (head : Position) (newer : List CkptRecord) : Position :=
  match newer.head? with
  | some r => r.mark
  | none => head

theorem recordsAgree_cons (head : Position) (r : CkptRecord) (newer : List CkptRecord) :
    recordsAgree head (r :: newer) = true
      ↔ r.records = (nextBound head newer - r.mark).toNat ∧ recordsAgree head newer = true := by
  cases newer <;> simp [recordsAgree, nextBound]

theorem nextBound_append (head : Position) (l : List CkptRecord) (r : CkptRecord) (newer : List CkptRecord) :
    nextBound head (l ++ r :: newer) = nextBound r.mark l := by
  cases l <;> simp [nextBound]

theorem recordsAgree_append (head : Position) (older : List CkptRecord) (r : CkptRecord) (newer : List CkptRecord) :
    recordsAgree head (older ++ r :: newer) = true
      ↔ recordsAgree r.mark older = true ∧ recordsAgree head (r :: newer) = true := by
  induction older with
  | nil => simp [recordsAgree]
  | cons x older ih =>
    rw [List.cons_append, recordsAgree_cons, recordsAgree_cons, ih, nextBound_append, and_assoc]

theorem recordsAgree_concat (head : Position) (older : List CkptRecord) (r : CkptRecord) :
    recordsAgree head (older ++ [r]) = true
      ↔ recordsAgree r.mark older = true ∧ r.records = (head - r.mark).toNat := by
  rw [recordsAgree_append, recordsAgree_cons]
  simp [nextBound, recordsAgree]

theorem recordsAgree_drop {head : Position} {l : List CkptRecord} (h : recordsAgree head l = true) (n : Nat) :
    recordsAgree head (l.drop n) = true := by
  induction n generalizing l with
  | zero => simpa using h
  | succ n ih =>
    cases l with
    | nil => exact h
    | cons r l => exact ih ((recordsAgree_cons head r l).mp h).2

theorem recordsAgree_broken (head : Position) (l : List CkptRecord) :
    recordsAgree head (l.map fun r => { r with state := .broken }) = recordsAgree head l := by
  induction l with
  | nil => rfl
  | cons r l ih =>
    have bound : nextBound head (l.map fun r => { r with state := .broken }) = nextBound head l := by
      cases l <;> rfl
    rw [Bool.eq_iff_iff, List.map_cons, recordsAgree_cons, recordsAgree_cons, ih, bound]

theorem recordsAgree_pass {s : State} (below : s.log.head ≠ s.log.allocated)
    (ordered : Ordered s.ckpt.stack s.log.tail s.log.head s.log.allocated s.log.capacity)
    (agree : recordsAgree s.log.head s.ckpt.stack = true) :
    recordsAgree (s.log.head + 1)
      (modCurrent (fun r => { r with records := min (r.records + 1) Config.recordsMax }) s.ckpt.stack) = true := by
  have lt : (s.log.head - s.log.tail).toNat < 2 ^ 26 := by
    have : (s.log.head - s.log.tail).toNat ≠ (s.log.allocated - s.log.tail).toNat := fun same => below (by bv_omega)
    have := ordered.head_le
    have := ordered.occupied
    have := ordered.bound
    omega
  rcases List.eq_nil_or_concat' s.ckpt.stack with empty | ⟨older, r, split⟩
  · simp [empty, modCurrent, recordsAgree]
  · have near := ordered.mark_le (r := r) (by simp [split])
    have distance := sub_toNat_rebase near
    rw [split, recordsAgree_concat] at agree
    rw [split, modCurrent_concat, recordsAgree_concat]
    refine ⟨agree.1, ?_⟩
    simp only
    rw [agree.2, succ_sub_toNat (by omega), Config.recordsMax]
    omega

/-- The law of the records fields by one stack and the log's positions. -/
abbrev Recorded (stack : List CkptRecord) (l : Log) : Prop :=
  Ordered stack l.tail l.head l.allocated l.capacity ∧ recordsAgree l.head stack = true

theorem recordsLaw_iff (s : State) : RecordsLaw s ↔ Recorded s.ckpt.stack s.log :=
  and_congr_left' (positionLaw_iff s)

theorem passHead_log (o : RecOutcome) (s : State) :
    (passHead o s).log.tail = (if s.ckpt.stack.isEmpty then s.log.head + 1 else s.log.tail)
      ∧ (passHead o s).log.head = s.log.head + 1 ∧ (passHead o s).log.allocated = s.log.allocated
      ∧ (passHead o s).log.capacity = s.log.capacity := by
  have empty (f : CkptRecord → CkptRecord) (l : List CkptRecord) : (modCurrent f l).isEmpty = l.isEmpty := by
    rcases List.eq_nil_or_concat' l with rfl | ⟨older, r, rfl⟩
    · rfl
    · rw [modCurrent_concat]
      cases older <;> rfl
  unfold passHead
  split <;> simp [empty]

theorem recorded_move {sound : Prop} {s t : State} (h : Move sound s t) (law : Recorded s.ckpt.stack s.log) :
    Recorded t.ckpt.stack t.log := by
  obtain ⟨ordered, agree⟩ := law
  cases h with
  | shrink h =>
    rw [Recorded, h.stack, h.tail, h.head, h.allocated, h.capacity]
    exact ⟨ordered, agree⟩
  | push n src room number ended h =>
    rw [Recorded, h.stack, h.tail, h.head, h.allocated, h.capacity, pushCkpt_fields]
    exact ⟨ordered.push rfl, (recordsAgree_concat _ _ _).mpr ⟨agree, by simp⟩⟩
  | reserve room => exact ⟨ordered.reserve (by simpa [logFull, occupancy] using room), agree⟩
  | pass o below =>
    obtain ⟨tail, head, allocated, capacity⟩ := passHead_log o s
    rw [Recorded, tail, head, allocated, capacity, passHead_stack]
    exact ⟨(ordered.pass below).of_marks (modCurrent_map (by intro _; rfl) _), recordsAgree_pass below ordered agree⟩
  | breakLive =>
    exact ⟨ordered.of_marks (by simp [markBroken, Function.comp_def]), (recordsAgree_broken _ _).trans agree⟩
  | release n => exact ⟨ordered.release n bounds_first, recordsAgree_drop agree n⟩
  | truncate k r found =>
    obtain ⟨newer, split⟩ := stack_cutBack found
    rw [split] at ordered agree
    exact ⟨ordered.truncate rfl, (recordsAgree_concat _ _ _).mpr ⟨((recordsAgree_append _ _ _ _).mp agree).1, by simp [cutBack]⟩⟩
  | configure base capacity policy stallLimit watermark empty bound =>
    rw [Recorded, State.onLog_ckpt, empty]
    exact ⟨⟨⟨[], rfl⟩, by simp [bounds, configuredLog], by simp [configuredLog], bound⟩, rfl⟩
  | abandon => exact ⟨ordered.abandon, agree⟩
  | powerOn =>
    have start : Ordered [] 0 0 0 0 := ⟨⟨[], rfl⟩, by simp [bounds], by simp, Nat.zero_le _⟩
    exact ⟨start, rfl⟩
  | request | defer | enroll | grant | send | badMessage | unrestored | insert | skipNumber =>
    simpa [Recorded] using And.intro ordered agree

/-- Settles O8: each move keeps the order of the positions, and with it the records fields. -/
theorem recordsLawKept : Obligations.RecordsLawKept := by
  intro s t law stepped
  rw [recordsLaw_iff] at law ⊢
  exact law_kept (law := fun s => Recorded s.ckpt.stack s.log) recorded_move law stepped

end Sys2Proof.Machine
end

section
/-! Steps, time and resets: what a step takes from the queue or of its own, and the resets' effects. -/

namespace Sys2Proof.Machine

-- One declaration at a time: elaborated in parallel, many quick ones exceed the memory limit.
set_option Elab.async false

/-! ## Steps on an empty queue -/

theorem step_of_due {s : State} (empty : s.pending = []) {c : Instr} (due : dueCommand s = some c) :
    step s = exec c s := by simp [step, empty, due]

theorem step_of_nothing_due {s : State} (empty : s.pending = []) (due : dueCommand s = none) :
    step s = .next (passMicrosecond s) := by simp [step, empty, due]

/-- Settles O1: by the definition of a step. -/
theorem stepRunsFrontCommand : Obligations.StepRunsFrontCommand := fun _ _ => rfl

section
variable {s : State}

theorem dueCommand_resetEnd (h : inReset s = true) {n : Nat} (running : s.pins.commandReset = some n)
    (due : 10 ≤ n) : dueCommand s = some (.commandResetEnd s.ckpt.ckptLevel) := by
  rw [dueCommand, if_pos h, running]
  exact if_pos due

theorem dueCommand_inReset (h : inReset s = true) (early : ∀ n, s.pins.commandReset = some n → n < 10) :
    dueCommand s = none := by
  rw [dueCommand, if_pos h]
  split
  · rename_i n running
    exact if_neg (by have := early n running; simp; omega)
  · rfl

theorem dueCommand_exit (h : inReset s = false) {n : Fin 32} (exit : dueExit s = some n) :
    dueCommand s = some (.commitWaitExit n) := by simp [dueCommand, h, exit]

theorem dueCommand_deferral (h : inReset s = false) (exit : dueExit s = none) (deferral : DeferralDue s) :
    dueCommand s = some .fenceDeferral := by
  simp [dueCommand, h, exit, (deferrable_iff s).mpr deferral]

theorem deferrable_none (h : ¬ DeferralDue s) : (deferrable s).isSome = false := by
  rwa [← deferrable_iff, Bool.not_eq_true] at h

theorem dueCommand_admission (h : inReset s = false) (exit : dueExit s = none) (deferral : ¬ DeferralDue s)
    (admission : AdmissionDue s) : dueCommand s = some .admission := by
  simp [dueCommand, h, exit, deferrable_none deferral, (admission_iff s).mpr admission]

/-- With no step of the unit's own due, what is due is an expiry. -/
theorem dueCommand_expiry (h : inReset s = false) (exit : dueExit s = none) (deferral : ¬ DeferralDue s)
    (admission : ¬ AdmissionDue s) : dueCommand s = dueExpiry s := by
  simp only [dueCommand, h, exit, deferrable_none deferral]
  rw [if_neg (by simp), if_neg (by simp), if_neg ((admission_iff s).not.mpr admission)]

theorem dueExpiry_stall (stall : StallDue s) : dueExpiry s = some .stallLimitExpiry :=
  if_pos ((stall_iff s).mpr stall)

theorem dueExpiry_tag (stall : ¬ StallDue s) {t : Fin 32} (tag : dueTag s.down = some t) :
    dueExpiry s = some (.downstreamTimeout t) := by
  rw [dueExpiry, if_neg ((stall_iff s).not.mpr stall), tag]

theorem dueExpiry_cascade (stall : ¬ StallDue s) (tag : dueTag s.down = none) {c : Instr}
    (cascade : dueCascade s.casc = some c) : dueExpiry s = some c := by
  rw [dueExpiry, if_neg ((stall_iff s).not.mpr stall), tag, cascade]

theorem dueExpiry_interval (stall : ¬ StallDue s) (tag : dueTag s.down = none) (cascade : ¬ AgreementDue s) :
    dueExpiry s = if s.ckpt.interval ≠ 0 ∧ s.ckpt.intervalCount = 0 then some .intervalExpiry else none := by
  rw [dueExpiry, if_neg ((stall_iff s).not.mpr stall), tag, dueCascade_none cascade]

theorem dueCascade_of_due (due : AgreementDue s) :
    (s.casc.role = .leader → dueCascade s.casc = some .agreementTimeout)
      ∧ (s.casc.role = .follower → dueCascade s.casc = some .holdTimeout) := by
  obtain ⟨_, a, ha, t, ht, expired⟩ := due
  simp only [dueCascade, Option.mem_def.mp ha, Option.mem_def.mp ht, (timerDue_iff t).mpr expired, if_true]
  exact ⟨fun role => by rw [role], fun role => by rw [role]⟩

/-- The first entry in admission order that may leave is the one whose exit is due (R62, log 23). -/
theorem dueExit_first (distinct : (s.entries.map Entry.num).Nodup) {older newer : List Entry} {e : Entry}
    (split : s.entries = older ++ e :: newer) (leaves : MayLeave s e) (first : ∀ x ∈ older, ¬ MayLeave s x) :
    dueExit s = some e.num := by
  have exits {x : Entry} (hx : x ∈ s.entries) := mayExit_iff (s := s) distinct hx
  refine List.find?_eq_some_iff_append.mpr
    ⟨(exits (by simp [split])).mpr leaves, older.map Entry.num, newer.map Entry.num, by simp [split], ?_⟩
  intro n hn
  obtain ⟨x, hx, rfl⟩ := List.mem_map.mp hn
  have stays := first x hx
  rw [← exits (by simp [split, hx])] at stays
  simpa using stays

end

/-- Settles O2: what is due is the first in the order of dueCommand and dueExpiry. -/
theorem emptyQueueStep : Obligations.EmptyQueueStep := by
  intro s empty
  refine ⟨fun h n running due => step_of_due empty (dueCommand_resetEnd h running due), fun h distinct => ?_⟩
  intro exit own tag
  have noExit (h : ¬ exit) : dueExit s = none :=
    (dueExit_none distinct).mpr fun e he leaves => h ⟨e, he, leaves⟩
  have expiry (none : ¬ own) : dueCommand s = dueExpiry s := by
    obtain ⟨none, deferral, admission⟩ : ¬ exit ∧ ¬ DeferralDue s ∧ ¬ AdmissionDue s := by
      simpa only [own, not_or] using none
    exact dueCommand_expiry h (noExit none) deferral admission
  have noTag (h : ¬ tag) : dueTag s.down = none := (dueTag_none _).mpr fun u hu due => h ⟨u, hu, due⟩
  refine ⟨?_, ?_, ?_, ?_, ?_, ?_, ?_⟩
  · intro older e newer split leaves first
    exact step_of_due empty (dueCommand_exit h (dueExit_first distinct split leaves first))
  · exact fun none due => step_of_due empty (dueCommand_deferral h (noExit none) due)
  · exact fun none deferral due => step_of_due empty (dueCommand_admission h (noExit none) deferral due)
  · exact fun none due => step_of_due empty ((expiry none).trans (dueExpiry_stall due))
  · intro none stall before u rest split due first
    exact step_of_due empty ((expiry none).trans (dueExpiry_tag stall (dueTag_some split due first)))
  · intro none stall quiet due
    have cascade {c : Instr} (h : dueCascade s.casc = some c) : step s = exec c s :=
      step_of_due empty ((expiry none).trans (dueExpiry_cascade stall (noTag quiet) h))
    exact ⟨fun role => cascade ((dueCascade_of_due due).1 role), fun role => cascade ((dueCascade_of_due due).2 role)⟩
  · intro none stall quiet cascade due
    refine step_of_due empty ((expiry none).trans ?_)
    rw [dueExpiry_interval stall (noTag quiet) cascade, if_pos due]

/-- Counting one is the saturating step (R209). -/
theorem satAdd_one (c : BitVec 32) : satAdd c 1 = satInc c := by
  by_cases full : c = BitVec.allOnes 32
  · rw [full]
    rfl
  · have below : c.toNat + 1 < 2 ^ 32 := by
      have := c.isLt
      have : c.toNat ≠ 2 ^ 32 - 1 := fun top => full (BitVec.eq_of_toNat_eq (by rw [top]; rfl))
      omega
    rw [satAdd, satInc, if_neg full, min_eq_left (by omega)]
    bv_omega

theorem tickStall_fields (s : State) : tickStall s = { s with
    log := { s.log with
      stallClock := if s.log.waitList = [] then s.log.stallClock else s.log.stallClock + 1 }
    mgmt := { s.mgmt with counters := { s.mgmt.counters with
      stallTime := if s.log.waitList = [] then s.mgmt.counters.stallTime
        else satInc s.mgmt.counters.stallTime } } } := by
  cases waiting : s.log.waitList with
  | nil =>
    simp only [tickStall, waiting, List.isEmpty_nil, if_true]
    rw [← waiting]
  | cons n rest =>
    simp [tickStall, waiting, countStallTime, onCounters, State.onLog, State.onMgmt, satAdd_one]

/-- Settles O3: nothing due, the step is the passing of a microsecond. -/
theorem microsecondPasses : Obligations.MicrosecondPasses := by
  intro s empty later
  refine ⟨fun h early => ?_, fun h distinct exit deferral admission stall tag cascade interval => ?_⟩
  · rw [step_of_nothing_due empty (dueCommand_inReset h early), passMicrosecond, if_pos h]
    rfl
  · have none : dueCommand s = none := by
      rw [dueCommand_expiry h ((dueExit_none distinct).mpr exit) deferral admission,
        dueExpiry_interval stall ((dueTag_none _).mpr tag) cascade, if_neg interval]
    rw [step_of_nothing_due empty none, passMicrosecond, if_neg (by simp [h])]
    have counted : tickInterval s.ckpt = if s.ckpt.interval = 0 then s.ckpt
        else if s.ckpt.intervalMicros < 999 then
          { s.ckpt with intervalMicros := s.ckpt.intervalMicros + 1 }
        else { s.ckpt with intervalMicros := 0, intervalCount := s.ckpt.intervalCount - 1 } := by
      simp only [tickInterval, show s.ckpt.intervalMicros + 1 < 1000 ↔ s.ckpt.intervalMicros < 999 by omega]
    rw [tickStall_fields, ← counted]
    rfl

/-! ## Reset values -/

/-- Settles O4: each value is the one written in the block's reset record. -/
theorem resetValues : Obligations.ResetValues := by
  refine ⟨rfl, rfl, rfl, rfl, rfl, ⟨rfl, rfl, rfl⟩, rfl, rfl, rfl, rfl, rfl, rfl, rfl, rfl, rfl, rfl, rfl, rfl, rfl, rfl,
    rfl, rfl, rfl, rfl, rfl, rfl, rfl, rfl, rfl, rfl, rfl, rfl, rfl, by decide, ?_⟩
  decide

/-- Settles O5: the laws of empty lists and of positions at 0. -/
theorem lawsAtReset : Obligations.LawsAtReset := by
  have stack : StackLaw State.reset := (stackLaw_iff _).mpr ⟨⟨Nat.zero_le 8, fun _ => Nat.zero_lt_succ 7⟩,
    List.nodup_nil, nofun, (by decide : (1 : CkptNumber) ≠ 0), List.Pairwise.nil⟩
  have start : Ordered [] 0 0 0 0 := ⟨⟨[], rfl⟩, by simp [bounds], by simp, Nat.zero_le _⟩
  refine ⟨?_, stack, (recordsLaw_iff _).mpr ⟨start, rfl⟩, List.nodup_nil, List.nodup_nil⟩
  exact ⟨Nat.zero_le _, Nat.zero_le _, Nat.zero_le _, List.nodup_nil, List.nodup_nil, Nat.zero_le _, Nat.zero_le _,
    Nat.zero_le _, List.nodup_nil, Nat.zero_le _, Nat.zero_le _⟩

/-! ## Warm reset -/

theorem cascadeIdOf_eq (s : State) : cascadeIdOf s = s.casc.agreement.map Agreement.id := rfl

section
variable {s : State}

theorem interruptedResult_settling {g : Goal} {src : Source}
    (h : s.ckpt.ctrl = .settling g src ∨ s.ckpt.ctrl = .agreeing g src) :
    interruptedResult s = some (goalResult g src .interrupted (cascadeIdOf s)) := by
  unfold interruptedResult
  rcases h with h | h <;> rw [h]

theorem interruptedResult_restoring {k : CkptNumber} {w : Walk} (h : s.ckpt.ctrl = .restoring k)
    (walk : s.restore.walk = some w) : interruptedResult s = some (rollbackResult (rollbackSource s) .interrupted k
      w.applied (linesUnrestored s) (cascadeIdOf s)) := by
  unfold interruptedResult
  rw [h, walk]
  rfl

/-- At rest nothing is interrupted where no leader awaits DONE. -/
theorem interruptedResult_atRest (h : s.ckpt.ctrl = .idle ∨ ∃ r, s.ckpt.ctrl = .held r)
    (rest : s.casc.role ≠ .leader ∨ s.casc.agreement = none) : interruptedResult s = s.mgmt.result := by
  have kept : ∀ a, s.casc.agreement = some a → s.casc.role ≠ .leader := fun a ha =>
    rest.resolve_right (by simp [ha])
  unfold interruptedResult
  rcases h with h | ⟨r, h⟩ <;> rw [h] <;> dsimp only <;> split
  · exact if_neg (kept _ ‹_›)
  · rfl
  · exact if_neg (kept _ ‹_›)
  · rfl

/-- A leader that awaits DONE reports its agreement (R213, R214). -/
theorem interruptedResult_leader (h : s.ckpt.ctrl = .idle ∨ ∃ r, s.ckpt.ctrl = .held r) {a : Agreement}
    (role : s.casc.role = .leader) (ha : s.casc.agreement = some a) :
    (a.goal = .take → interruptedResult s = some (takeResult a.source .interrupted a.pushed (some a.id)))
      ∧ ∀ k, a.goal = .rollback k → interruptedResult s
        = some (rollbackResult a.source .interrupted k a.applied a.unrestored (some a.id)) := by
  unfold interruptedResult
  rcases h with h | ⟨r, h⟩ <;> simp only [h, ha, role, if_true]
  · exact ⟨fun goal => by rw [goal], fun k goal => by rw [goal]⟩
  · exact ⟨fun goal => by rw [goal], fun k goal => by rw [goal]⟩

theorem warmCascade_fields (c : Cascade) : warmCascade c = { c with
    agreement := none, upList := [], downList := []
    abandoned := if c.role = .follower ∧ c.agreement.isSome = true
      then c.agreement.map Agreement.id else c.abandoned } := by
  unfold warmCascade
  split
  · rename_i role ha
    simp [role, ha]
  · rename_i other
    rw [if_neg]
    rintro ⟨role, some⟩
    obtain ⟨a, ha⟩ := Option.isSome_iff_exists.mp some
    exact other a role ha

end

theorem warmReset_result (s : State) : (warmReset s).mgmt.result = interruptedResult s := rfl

/-- Settles O24: block by block, with the controller and the result record by the controller's state. -/
theorem warmReset_spec : Obligations.WarmReset := by
  refine ⟨fun s => ⟨_, rfl, rfl, rfl, rfl, rfl, rfl, rfl, rfl, rfl, warmCascade_fields _, rfl, ?_, ?_, ?_, ?_, rfl, rfl⟩,
    fun s t asserted => ?_⟩
  · intro h
    simp [warmReset, warmController, warmCtrl, warmFence, h]
  · rintro g src (h | h) <;> simp [warmReset, warmController, warmCtrl, warmFence, h]
  · intro k h
    simp [warmReset, warmController, warmCtrl, warmFence, h]
  · intro r h
    simp [warmReset, warmController, warmCtrl, warmFence, h]
  · have result : t.mgmt.result = interruptedResult s := by
      rw [← Host.Outcome.next.inj asserted]
      rfl
    rw [result]
    refine ⟨fun src h => interruptedResult_settling h, fun k src h => interruptedResult_settling h,
      fun k w h walk => interruptedResult_restoring h walk, fun h => ⟨interruptedResult_atRest h, fun a role ha => ?_⟩⟩
    exact interruptedResult_leader h role ha

/-! ## The reset lines -/

/-- While a reset is left asserted only the starting level is noted. -/
theorem resume_inReset {s : State} (h : inReset s = true) (q : Bool) :
    resume q s = { s with ckpt := { s.ckpt with ckptLevel := q } } := if_pos h

/-- What the port takes of its own on the end of a reset: a request still offered. -/
theorem resume_fields {s : State} (h : inReset s = false) (q : Bool) :
    resume q s = offerIfDue (takeOffered { s with
      ckpt := { s.ckpt with ckptLevel := q }
      mgmt := { s.mgmt with decoder := if s.mgmt.mcsLow then .ignoring else .waiting } }) := by
  unfold resume
  rw [if_neg (by simpa [inReset] using h)]
  rfl

/-- Nothing is offered upstream while no entry is DONE and no refusal waits. -/
theorem offerIfDue_none {s : State} (refusals : s.up.refusals = []) (entries : s.entries = [])
    (channel : s.up.channel = none) : offerIfDue s = s := by
  have ready : readySeqs s = [] := by simp [readySeqs, refusals, entries]
  unfold offerIfDue
  rw [ready, if_pos (by simp [channel])]
  show { s with up := { s.up with channel := none } } = s
  rw [← channel]

theorem takeOffered_none {s : State} (h : s.up.offered = none) : takeOffered s = s := by
  simp [takeOffered, h]

theorem resume_noOffer {s : State} (h : inReset s = false) (up : s.up = Upstream.reset) (entries : s.entries = [])
    (q : Bool) : resume q s = { s with
      ckpt := { s.ckpt with ckptLevel := q }
      mgmt := { s.mgmt with decoder := if s.mgmt.mcsLow then .ignoring else .waiting } } := by
  rw [resume_fields h, takeOffered_none (by rw [up]; rfl)]
  exact offerIfDue_none (by rw [up]; rfl) entries (by rw [up]; rfl)

/-- An offered request that is not refused receives its acceptance sequence and its class, and is queued
(R117, R120, R124). -/
theorem takeOffered_queued {s : State} {r : HostRequest} (offer : s.up.offered = some r)
    (room : portHasRoom s.up = true) (accepted : refusalOf r s = none) :
    takeOffered s = { s with up := { s.up with
      offered := none
      nextSeq := s.up.nextSeq + 1
      liveTags := s.up.liveTags ++ [r.tag]
      queue := s.up.queue ++ [⟨r.tag, r.op, r.line, classOf r.line s, s.up.nextSeq⟩] } } := by
  have same : refusalOf r (s.onUp fun u => { u with offered := none }) = none := accepted
  simp only [takeOffered, offer, room, if_true, takeRequest, same]
  rfl

theorem refusalOf_read {s : State} {r : HostRequest} (tag : r.tag ∉ s.up.liveTags)
    (within : r.line < s.cls.memSize) (read : opKind r.op = .read) : refusalOf r s = none := by
  simp [refusalOf, tag, read, Nat.not_le.mpr within]

/-- The offer of a READ within the memory is taken, the port empty otherwise. -/
theorem resume_offer {s : State} (h : inReset s = false) (up : s.up = { Upstream.reset with offered := s.up.offered })
    (entries : s.entries = []) (q : Bool) {r : HostRequest} (offer : s.up.offered = some r)
    (within : r.line < s.cls.memSize) (read : opKind r.op = .read) : resume q s = { s with
      ckpt := { s.ckpt with ckptLevel := q }
      mgmt := { s.mgmt with decoder := if s.mgmt.mcsLow then .ignoring else .waiting }
      up := { s.up with
        offered := none, nextSeq := 1, liveTags := [r.tag]
        queue := [⟨r.tag, r.op, r.line, classOf r.line s, 0⟩] } } := by
  have room : portHasRoom s.up = true := by rw [up]; rfl
  have noTags : s.up.liveTags = [] := by rw [up]; rfl
  rw [resume_fields h, takeOffered_queued (r := r), offerIfDue_none]
  · simp only [noTags, show s.up.nextSeq = 0 by rw [up]; rfl, show s.up.queue = [] by rw [up]; rfl]
    rfl
  case offer => exact offer
  case room => exact room
  case accepted => exact refusalOf_read (by simp [noTags]) within read
  case entries => exact entries
  case refusals => exact (congrArg Upstream.refusals up).trans rfl
  case channel => exact (congrArg Upstream.channel up).trans rfl

/-- Settles O26: the reset that ends leaves the others asserted, or the unit resumes. -/
theorem warmResetEnd : Obligations.WarmResetEnd := by
  intro s q pins c ends
  have resumed : exec c s = .next (resume q { s with pins := pins }) := by
    rcases ends with ⟨rfl, low, rfl⟩ | ⟨rfl, running, rfl⟩
    · exact congrArg Host.Outcome.next (if_pos low)
    · exact congrArg Host.Outcome.next (if_pos running)
  rw [resumed]
  refine ⟨fun asserted => congrArg _ (resume_inReset asserted q), fun ended up entries => ⟨fun none => ?_, ?_⟩⟩
  · exact congrArg _ (resume_noOffer ended (by rw [none] at up; exact up) entries q)
  · exact fun r offer within read => congrArg _ (resume_offer ended up entries q offer within read)

/-- An event is not taken while a reset is asserted (R177, R203). -/
theorem event_inReset {s : State} (h : inReset s = true) (f : State → State) : event s f = .next s := by
  simp [event, h]

theorem onFrame_inReset {s : State} (h : inReset s = true) (run : State → Answer) : onFrame s run = .next s := by
  simp [onFrame, h]

/-- Settles O25: each block's power-on record, the release with nothing offered, and the commands a reset
does not take. -/
theorem powerOnReset_spec : Obligations.PowerOnReset := by
  refine ⟨fun s q => ⟨rfl, fun pins up entries => ?_, fun low wrst => ?_⟩, fun s c h => ?_⟩
  · have low : s.pins.porstLow = true := by rw [pins]
    have ended : inReset { s with pins := { s.pins with porstLow := false } } = false := by simp [inReset, pins]
    refine (congrArg Host.Outcome.next (if_pos low)).trans ?_
    refine (congrArg Host.Outcome.next (resume_noOffer ended up entries q)).trans ?_
    simp [pins]
  · refine (congrArg Host.Outcome.next (if_pos low)).trans ?_
    exact congrArg Host.Outcome.next (resume_inReset (by simp [inReset, wrst]) q)
  · intro request start finish resetEnd porst porstEnd wrst wrstEnd
    cases c with
    | requestTaken r => exact absurd rfl (request r)
    | transactionStart => exact absurd rfl start
    | transactionEnd => exact absurd rfl finish
    | commandResetEnd q => exact absurd rfl (resetEnd q)
    | porstNAssert => exact absurd rfl porst
    | porstNRelease q => exact absurd rfl (porstEnd q)
    | wrstNAssert => exact absurd rfl wrst
    | wrstNRelease q => exact absurd rfl (wrstEnd q)
    | badFrame bytes => exact (ite_eq_right_iff.mpr fun _ => onFrame_inReset h _)
    | unknownCommand bytes => exact (ite_eq_right_iff.mpr fun _ => onFrame_inReset h _)
    | identify | setMemorySize | setWindow | setLog | setDownstream | setTriggers | setCascade | take | release
    | rollback | releaseFence | readStatus | readCheckpoints | readResult | readUnrestored | readCounters
    | clearCounters | setAlertMask | clearAlerts | warmReset =>
      simp only [exec]
      exact onFrame_inReset h _
    | admission | fenceDeferral | grant | downstreamRequestTaken | downstreamResponse | downstreamTimeout
    | commitWaitExit | responseOffer | responseTaken | takeSettled | triggerTakeStart | rollbackSettled
    | stallLimitExpiry | ckptReqRise | intervalExpiry | messageSent | badMessage | prepareReceived
    | readyReceived | goReceived | abandonReceived | doneReceived | askReceived | agreementTimeout | holdTimeout
    | leaderGo | readyOkSend | doneSend =>
      simp only [exec]
      exact event_inReset h _

/-! ## Transactions -/

/-- A frame after the one executed, or while the port waits for MCS_N, is ignored (R176, R177). -/
theorem onFrame_ignored {s : State} (h : s.mgmt.decoder = .answered ∨ s.mgmt.decoder = .ignoring)
    (run : State → Answer) : onFrame s run = .next s := by
  unfold onFrame
  rcases h with h | h <;> rw [h] <;> simp

/-- So is every command that has a frame. -/
theorem exec_ignored {s : State} (h : s.mgmt.decoder = .answered ∨ s.mgmt.decoder = .ignoring) {c : Instr}
    (framed : (encodeFrame c).isSome = true) : exec c s = .next s := by
  cases c with
  | identify | setMemorySize | setWindow | setLog | setDownstream | setTriggers | setCascade | take | release
  | rollback | releaseFence | readStatus | readCheckpoints | readResult | readUnrestored | readCounters
  | clearCounters | setAlertMask | clearAlerts | warmReset =>
    simp only [exec]
    exact onFrame_ignored h _
  | _ => exact absurd framed (by simp [encodeFrame])

/-- Settles O14: by the level of MCS_N and the decoder. -/
theorem transactions : Obligations.Transactions := by
  intro s
  refine ⟨fun high listening waiting => ?_, fun high h => ?_, fun low pending => ?_, fun h request => ?_,
    fun w asserted => ⟨fun low pending => ?_, fun h waiting => ?_⟩, fun answered c framed => ?_⟩
  · simp [exec, execTransactionStart, high, listening, waiting, State.onMgmt]
  · simp [exec, execTransactionStart, high, h, State.onMgmt]
  · simp [exec, execTransactionEnd, startPendingReset, low, pending, State.onMgmt]
  · simp [exec, execWarmReset, onFrame, h, request, respond, done, Machine.answered, State.onMgmt]
  · rw [← Host.Outcome.next.inj asserted]
    simp only [exec, execTransactionEnd, low, if_true, startPendingReset, State.onMgmt, pending]
    rfl
  · rw [← Host.Outcome.next.inj asserted]
    simp only [exec, execWarmReset, onFrame, h, waiting]
    rfl
  · exact exec_ignored answered framed

end Sys2Proof.Machine
end

section
/-! Formats: frames, messages and undo records read back as what they were laid out from. -/

namespace Sys2Proof.Machine

-- One declaration at a time: elaborated in parallel, many quick ones exceed the memory limit.
set_option Elab.async false

/-! ## Bytes -/

theorem sumBytes_append (a b : List Byte) : sumBytes (a ++ b) = sumBytes a + sumBytes b := by
  induction a with
  | nil => simp [sumBytes]
  | cons x a ih => simpa [sumBytes, BitVec.add_assoc] using ih

theorem sumBytes_withCheck (bs : List Byte) : sumBytes (withCheck bs) = 0x55 := by
  rw [withCheck, sumBytes_append]
  simp only [sumBytes, checkByte, List.foldr_cons, List.foldr_nil]
  bv_omega

theorem word16_bytes (x : BitVec 16) : word16 (x.extractLsb' 8 8) (x.extractLsb' 0 8) = x := by
  rw [word16, BitVec.extractLsb'_append_extractLsb'_eq_extractLsb' (by rfl)]
  exact BitVec.extractLsb'_eq_self

theorem word32_bytes (x : BitVec 32) :
    word32 (x.extractLsb' 24 8) (x.extractLsb' 16 8) (x.extractLsb' 8 8) (x.extractLsb' 0 8) = x := by
  rw [word32, BitVec.extractLsb'_append_extractLsb'_eq_extractLsb' (by rfl),
    BitVec.extractLsb'_append_extractLsb'_eq_extractLsb' (by rfl),
    BitVec.extractLsb'_append_extractLsb'_eq_extractLsb' (by rfl)]
  exact BitVec.extractLsb'_eq_self

theorem word40_bytes (x : BitVec 40) : word40 (x.extractLsb' 32 8) (x.extractLsb' 24 8) (x.extractLsb' 16 8)
    (x.extractLsb' 8 8) (x.extractLsb' 0 8) = x := by
  rw [word40, BitVec.extractLsb'_append_extractLsb'_eq_extractLsb' (by rfl),
    BitVec.extractLsb'_append_extractLsb'_eq_extractLsb' (by rfl),
    BitVec.extractLsb'_append_extractLsb'_eq_extractLsb' (by rfl),
    BitVec.extractLsb'_append_extractLsb'_eq_extractLsb' (by rfl)]
  exact BitVec.extractLsb'_eq_self

/-! ## Request frames -/

section
variable {code len : Byte} {rest : List Byte}

/-- The length byte says where the check byte stands; a wrong sum fails the first check (R178). -/
theorem judgeFrame_badSum (complete : rest.length = len.toNat + 1) (sum : sumBytes (code :: len :: rest) ≠ Config.frameSum) :
    judgeFrame (code :: len :: rest) = .badFrame := by
  rw [judgeFrame, if_neg (not_not.mpr complete), if_pos sum]

theorem judgeFrame_tooLong (complete : rest.length = len.toNat + 1) (sum : sumBytes (code :: len :: rest) = Config.frameSum)
    (long : 32 < len.toNat) : judgeFrame (code :: len :: rest) = .badFrame := by
  rw [judgeFrame, if_neg (not_not.mpr complete), if_neg (not_not.mpr sum), if_pos long]

theorem judgeFrame_unknown (complete : rest.length = len.toNat + 1) (sum : sumBytes (code :: len :: rest) = Config.frameSum)
    (short : len.toNat ≤ 32) (unknown : code ∉ commandCodes) : judgeFrame (code :: len :: rest) = .unknown := by
  rw [judgeFrame, if_neg (not_not.mpr complete), if_neg (not_not.mpr sum), if_neg (Nat.not_lt.mpr short),
    if_pos (by simpa using unknown)]

/-- A frame that passes the first three checks is judged by its parameters (R178, R219). -/
theorem judgeFrame_known (complete : rest.length = len.toNat + 1) (sum : sumBytes (code :: len :: rest) = Config.frameSum)
    (short : len.toNat ≤ 32) (known : code ∈ commandCodes) :
    (parseParams code (rest.take len.toNat) = none → judgeFrame (code :: len :: rest) = .badFrame)
      ∧ ∀ c, parseParams code (rest.take len.toNat) = some c → judgeFrame (code :: len :: rest) = .good c := by
  rw [judgeFrame, if_neg (not_not.mpr complete), if_neg (not_not.mpr sum), if_neg (Nat.not_lt.mpr short),
    if_neg (by simpa using known)]
  exact ⟨fun h => by rw [h], fun c h => by rw [h]⟩

end

/-- A frame built from a known code and parameters that spell a command is judged that command. -/
theorem judgeFrame_requestFrame {code : Byte} {p : List Byte} {c : Instr} (short : p.length ≤ 32)
    (known : code ∈ commandCodes) (spelled : parseParams code p = some c) :
    judgeFrame (requestFrame code p) = .good c := by
  have len : (BitVec.ofNat 8 p.length).toNat = p.length := by simp; omega
  have sum := sumBytes_withCheck (code :: BitVec.ofNat 8 p.length :: p)
  rw [requestFrame, withCheck] at *
  refine (judgeFrame_known (by simp [len]) sum (by omega) known).2 c ?_
  rw [len]
  exact (congrArg (parseParams code) List.take_left).trans spelled

/-- The command a frame is laid out from is the one its parameters spell (R219). -/
theorem encodeFrame_spells {c : Instr} {bytes : List Byte} (h : encodeFrame c = some bytes) :
    ∃ code p, bytes = requestFrame code p ∧ p.length ≤ 32 ∧ code ∈ commandCodes ∧ parseParams code p = some c := by
  cases c with
  | readUnrestored option =>
    cases option with
    | none | some o => exact ⟨_, _, (Option.some.inj h).symm, by simp, by simp [commandCodes],
      by unfold parseParams; simp⟩
  | identify | setMemorySize | setWindow | setLog | setDownstream | setTriggers | setCascade | setAlertMask
  | take | release | rollback | releaseFence | readStatus | readCheckpoints | readResult | readCounters
  | clearCounters | clearAlerts | warmReset =>
    refine ⟨_, _, (Option.some.inj h).symm, by simp [bytes16, bytes32, bytes40], by simp [commandCodes], ?_⟩
    unfold parseParams
    simp [bytes16, bytes32, bytes40, word16_bytes, word32_bytes, word40_bytes]
  | _ => exact absurd h (by simp [encodeFrame])

/-- Settles O10: the frame's parameters spell the command they were laid out from. -/
theorem frameRoundTrip : Obligations.FrameRoundTrip := by
  intro c bytes h
  obtain ⟨code, p, rfl, short, known, spelled⟩ := encodeFrame_spells h
  exact ⟨sumBytes_withCheck _, judgeFrame_requestFrame short known spelled⟩

/-- Settles O15: the four checks in order, and the answer of each event. -/
theorem frameChecks : Obligations.FrameChecks := by
  intro s d code len rest complete bytes
  refine ⟨judgeFrame_badSum complete, judgeFrame_tooLong complete, judgeFrame_unknown complete,
    fun sum short known => (judgeFrame_known complete sum short known).1, fun listening => ⟨fun bad => ?_, fun bad => ?_⟩⟩
  · exact (if_pos bad).trans (onFrame_gives (a := refuse stBadFrame s) listening rfl rfl)
  · exact (if_pos bad).trans (onFrame_gives (a := refuse stUnknown s) listening rfl rfl)

/-! ## Cascade messages -/

/-- Six bytes with their check byte are read as the message their fields spell (R220). -/
theorem decodeMessage_withCheck (kind id n1 n0 v : Byte) :
    decodeMessage (withCheck [kind, id, n1, n0, v]) = messageOf kind id (word16 n1 n0) v :=
  if_pos (sumBytes_withCheck [kind, id, n1, n0, v])

theorem readyOf_readyByte (v : ReadyVerdict) : readyOf (readyByte v) = some v := by
  cases v with
  | ok => rfl
  | refuse reason => cases reason <;> rfl

theorem doneOf_doneByte (o : DoneOutcome) : doneOf (doneByte o) = some o := by
  cases o <;> rfl

theorem decodeMessage_encodeMessage {m : Message} (wf : m.wellFormed = true)
    (number : ∀ id k, m = .prepare id .take k → k = 0) : decodeMessage (encodeMessage m) = some m := by
  cases m with
  | prepare id kind k =>
    cases kind with
    | take => rw [encodeMessage, decodeMessage_withCheck, number id k rfl]; rfl
    | rollback =>
      have nonzero : ¬ k = 0#16 := by simpa [Message.wellFormed] using wf
      exact (decodeMessage_withCheck _ _ _ _ _).trans (by simp [messageOf, word16_bytes, nonzero])
  | ready id v => exact (decodeMessage_withCheck _ _ _ _ _).trans (by simp [messageOf, readyOf_readyByte])
  | go id n =>
    have nonzero : ¬ n = 0#16 := by simpa [Message.wellFormed] using wf
    exact (decodeMessage_withCheck _ _ _ _ _).trans (by simp [messageOf, word16_bytes, nonzero])
  | abandon id => exact (decodeMessage_withCheck _ _ _ _ _).trans (by simp [messageOf])
  | done id o => exact (decodeMessage_withCheck _ _ _ _ _).trans (by simp [messageOf, doneOf_doneByte])
  | ask source => cases source <;> exact (decodeMessage_withCheck _ _ _ _ _).trans (by simp [messageOf])

/-- Every message is laid out as five bytes and their check byte (R220). -/
theorem encodeMessage_withCheck (m : Message) : ∃ bs, encodeMessage m = withCheck bs ∧ bs.length = 5 := by
  cases m with
  | prepare id kind k => cases kind <;> exact ⟨_, rfl, rfl⟩
  | ask source => cases source <;> exact ⟨_, rfl, rfl⟩
  | _ => exact ⟨_, rfl, rfl⟩

/-- Settles O11: the fields of each kind read back as laid out. -/
theorem messageRoundTrip : Obligations.MessageRoundTrip := by
  intro m wf number
  obtain ⟨bs, laid, length⟩ := encodeMessage_withCheck m
  exact ⟨by simp [laid, withCheck, length], by rw [laid, sumBytes_withCheck], decodeMessage_encodeMessage wf number⟩

/-! ## The undo record -/

section
variable {poisoned : Bool} {number : CkptNumber} {position : Position} {line : Nat} {check : BitVec 32}

/-- A field of a header line above the check value is the field of its bytes 0 to 55. -/
theorem extract_headerLine {top : BitVec 448} {start len : Nat} (above : 64 ≤ start) :
    (headerLine top check).extractLsb' start len = top.extractLsb' (start - 64) len := by
  rw [headerLine, BitVec.extractLsb'_append_eq_of_le (by omega), BitVec.extractLsb'_append_eq_of_le (by omega)]
  congr 1

theorem headerTopOf_headerLine (top : BitVec 448) : headerTopOf (headerLine top check) = top := by
  rw [headerTopOf, extract_headerLine (Nat.le_refl _)]
  exact BitVec.extractLsb'_eq_self

theorem headerCheck_headerLine (top : BitVec 448) : headerCheck (headerLine top check) = check := by
  rw [headerCheck, headerLine, BitVec.extractLsb'_append_eq_of_le (by decide), BitVec.extractLsb'_append_eq_of_add_le (by decide)]
  exact BitVec.extractLsb'_eq_self

/-- The fields of the header's bytes 0 to 55 at the places R217 gives them. -/
theorem headerTop_fields (within : line < 2 ^ 34) :
    let h := headerLine (headerTop poisoned number position line) check
    headerMark h = 0x454B5231 ∧ headerFlags h = (if poisoned then 1 else 0) ∧ headerNumber h = number
      ∧ headerPosition h = position ∧ headerAddr h = line
      ∧ h.extractLsb' 448 24 = 0 ∧ h.extractLsb' 416 16 = 0 ∧ h.extractLsb' 64 280 = 0
      ∧ h.extractLsb' 0 32 = 0 := by
  intro h
  have low : h.extractLsb' 0 32 = 0 := by
    rw [show h = headerLine _ _ from rfl, headerLine, BitVec.extractLsb'_append_eq_of_add_le (by decide)]
    exact BitVec.extractLsb'_eq_self
  refine ⟨?mark, ?_, ?_, ?_, ?addr, ?_, ?_, ?_, low⟩
  case mark =>
    rw [headerMark, extract_headerLine (by decide), headerTop]
    repeat rw [BitVec.extractLsb'_append_eq_of_le (by decide)]
    exact BitVec.extractLsb'_eq_self
  case addr =>
    rw [headerAddr, extract_headerLine (by decide), headerTop]
    repeat rw [BitVec.extractLsb'_append_eq_of_le (by decide)]
    rw [BitVec.extractLsb'_append_eq_of_add_le (by decide)]
    refine (congrArg BitVec.toNat BitVec.extractLsb'_eq_self).trans ?_
    rw [BitVec.toNat_ofNat]
    omega
  all_goals
    simp only [h, headerFlags, headerNumber, headerPosition]
    rw [extract_headerLine (by decide), headerTop]
    repeat rw [BitVec.extractLsb'_append_eq_of_le (by decide)]
    rw [BitVec.extractLsb'_append_eq_of_add_le (by decide)]
    exact BitVec.extractLsb'_eq_self

/-- A header of a record is judged corrupt by the six tests of R77. -/
theorem headerCorrupt_iff (h : LineData) (p : Position) (c : Classifier) :
    headerCorrupt h p c = true ↔
      headerMark h ≠ 0x454B5231 ∨ (headerFlags h ≠ 0 ∧ headerFlags h ≠ 1) ∨ headerPosition h ≠ p
        ∨ c.memSize ≤ headerAddr h
        ∨ (∀ w ∈ c.windows.toList, w.enable = true → ¬ (w.base ≤ headerAddr h ∧ headerAddr h < w.base + w.count))
        ∨ (headerFlags h = 1 ∧ headerCheck h ≠ crc32 (headerTopOf h)) := by
  have outside : inWindow (headerAddr h) c = false
      ↔ ∀ w ∈ c.windows.toList, w.enable = true → ¬ (w.base ≤ headerAddr h ∧ headerAddr h < w.base + w.count) := by
    rw [← Bool.not_eq_true, inWindow_iff]
    push Not
    rfl
  rw [← outside]
  simp [headerCorrupt, headerPoisoned, or_assoc]

/-- An assembled header within the memory and an enabled window passes the walk's tests. -/
theorem headerCorrupt_assembled {c : Classifier} (within : line < 2 ^ 34) (memory : line < c.memSize)
    (window : inWindow line c = true)
    (sound : poisoned = true → check = crc32 (headerTop poisoned number position line)) :
    headerCorrupt (headerLine (headerTop poisoned number position line) check) position c = false := by
  obtain ⟨mark, flags, _, pos, addr, _⟩ :=
    headerTop_fields (poisoned := poisoned) (number := number) (position := position) (check := check) within
  simp only [headerCorrupt, headerPoisoned, mark, flags, pos, addr, headerCheck_headerLine, headerTopOf_headerLine, window]
  cases poisoned with
  | false => simp; omega
  | true => simp [sound rfl]; omega

end

/-- Settles O12: field by field, and the six tests of a header. -/
theorem recordRoundTrip : Obligations.RecordRoundTrip := by
  refine ⟨?_, fun h p c => headerCorrupt_iff h p c, by decide +kernel⟩
  intro number position line old c within h p
  obtain ⟨mark, flags, num, pos, addr, z1, z2, z3, z4⟩ := headerTop_fields (poisoned := false) (number := number)
    (position := position) (check := recordCheck (headerTop false number position line) old) within
  obtain ⟨mark', flags', num', pos', addr', -⟩ := headerTop_fields (poisoned := true) (number := number)
    (position := position) (check := crc32 (headerTop true number position line)) within
  refine ⟨mark, flags, num, pos, addr, z1, z2, z3, z4, ?_, mark', flags', num', pos', addr', ?_, fun memory window => ⟨?_, ?_⟩⟩
  · simp only [h, assembleHeader, headerCheck_headerLine, headerTopOf_headerLine, recordCheck]
  · simp only [p, assembleHeader, headerCheck_headerLine, headerTopOf_headerLine]
  · exact headerCorrupt_assembled within memory window nofun
  · exact headerCorrupt_assembled within memory window fun _ => rfl

end Sys2Proof.Machine
end

section
/-! The management port's status payload and its configuration commands. -/

namespace Sys2Proof.Machine

-- One declaration at a time: elaborated in parallel, many quick ones exceed the memory limit.
set_option Elab.async false

/-! ## The status payload -/

/-- Places, by first byte and length, stand one behind the other, the first at o. -/
def Laid : Nat → List (Nat × Nat) → Bool
  | _, [] => true
  | o, p :: ps => p.1 == o && Laid (o + p.2) ps

/-- The places of fields. -/
def places (fs : List (Nat × Nat × Nat)) : List (Nat × Nat) := fs.map fun f => (f.1, f.2.1)

/-- The bytes of fields in their order. -/
def fieldBytes (fs : List (Nat × Nat × Nat)) : List Byte := fs.flatMap fun f => be f.2.1 f.2.2

theorem length_be (n x : Nat) : (be n x).length = n := by
  induction n with
  | zero => rfl
  | succ n ih => simp [be, ih]

/-- A field laid out among others is found at its place. -/
theorem field_of_laid {o : Nat} {fs : List (Nat × Nat × Nat)} (laid : Laid o (places fs) = true) :
    ∀ f ∈ fs, o ≤ f.1 ∧ ((fieldBytes fs).drop (f.1 - o)).take f.2.1 = be f.2.1 f.2.2 := by
  induction fs generalizing o with
  | nil => simp
  | cons g fs ih =>
    obtain ⟨first, rest⟩ : g.1 = o ∧ Laid (o + g.2.1) (places fs) = true := by
      simpa [places, Laid] using laid
    intro f hf
    rcases List.mem_cons.mp hf with rfl | hf
    · subst first
      exact ⟨Nat.le_refl _, by simp [fieldBytes, length_be]⟩
    · obtain ⟨after, bytes⟩ := ih rest f hf
      refine ⟨by omega, ?_⟩
      have place : f.1 - o = (be g.2.1 g.2.2).length + (f.1 - (o + g.2.1)) := by
        rw [length_be]
        omega
      rw [fieldBytes, List.flatMap_cons, place, List.drop_length_add_append]
      exact bytes

theorem length_fieldBytes (fs : List (Nat × Nat × Nat)) : (fieldBytes fs).length = ((places fs).map Prod.snd).sum := by
  simp [fieldBytes, places, List.length_flatMap, length_be, Function.comp_def]

/-- The places of the status payload do not depend on the state. -/
theorem places_statusTable (s : State) : places (statusTable s) = places (statusTable State.reset) := by
  simp only [places, statusTable, List.map_append, List.map_cons, List.map_nil, List.map_flatMap]

theorem laid_statusTable (s : State) : Laid 0 (places (statusTable s)) = true := by
  rw [places_statusTable]
  decide +kernel

theorem bytes16_eq_be (x : BitVec 16) : bytes16 x = be 2 x.toNat := rfl

theorem be_one_byte (b : Byte) : [b] = be 1 b.toNat := (be_one_toNat b).symm

theorem ctrlBytes_eq (k : Ctrl) : ctrlBytes k = be 1 (shownCtrl k).1 ++ be 1 (shownCtrl k).2.1
    ++ be 1 (shownCtrl k).2.2.1 ++ be 2 (shownCtrl k).2.2.2 := by
  cases k with
  | settling g src | agreeing g src => cases g <;> rfl
  | held r => cases r <;> rfl
  | idle | restoring => rfl

theorem agreementBytes_eq (a : Option Agreement) : agreementBytes a = be 1 a.isSome.toNat
    ++ be 1 ((a.map fun a => a.id.toNat).getD 0)
    ++ be 1 ((a.map fun a => if a.goal = .take then 1 else 2).getD 0)
    ++ be 2 ((a.map fun a => goalTarget a.goal).getD 0) ++ be 1 ((a.map agreementPhase).getD 0)
    ++ be 1 (((a.bind Agreement.belowDone).map fun o => outcomeRank o + 1).getD 0)
    ++ be 2 (((a.bind Agreement.timer).map Timer.value).getD 0) := by
  cases a with
  | none => rfl
  | some a =>
    have kind : kindCode (goalKind a.goal) = if a.goal = .take then 1 else 2 := by cases a.goal <;> rfl
    have done : [(a.belowDone.map doneByte).getD 0] = be 1 ((a.belowDone.map fun o => outcomeRank o + 1).getD 0) := by
      cases a.belowDone with
      | none => rfl
      | some o => cases o <;> rfl
    simp only [agreementBytes, kind, done, Option.map_some, Option.getD_some, Option.bind_some, be_one_toNat]
    rfl

theorem inState_eq (st : EntryState) (s : State) : inState st s = countState st s :=
  List.countP_eq_length_filter.symm

theorem windows_toList {α : Type} (v : Vector α 8) : v.toList = (List.finRange 8).map v.get := by
  refine List.ext_getElem (by simp) fun i h _ => ?_
  simp [Vector.get]

/-- The payload is the fields of section 11.5 one behind the other. -/
theorem statusPayload_eq (s : State) : statusPayload s = fieldBytes (statusTable s) := by
  have policy : policyCode s.log.policy = if s.log.policy = .break then 1 else 0 := by cases s.log.policy <;> rfl
  have abandoned : [s.casc.abandoned.getD 0] = be 1 ((s.casc.abandoned.map BitVec.toNat).getD 0) := by
    cases s.casc.abandoned with
    | none => rfl
    | some id => exact be_one_byte id
  simp only [statusPayload, controllerGroup, logGroup, admissionGroup, trackerGroup, downstreamGroup, cascadeGroup,
    alertGroup, ctrlBytes_eq, agreementBytes_eq, bytes16_eq_be, bytes32_eq_be, inState_eq, policy, abandoned,
    be_one_byte s.casc.opId, windows_toList, ← List.append_assoc]
  simp only [fieldBytes, statusTable, List.flatMap_append, List.flatMap_cons, List.flatMap_nil, List.append_nil,
    List.flatMap_assoc, List.flatMap_map, List.countP_eq_length_filter, List.append_assoc]
  rfl

/-- Settles O17: the payload is the table's fields laid out from byte 0. -/
theorem statusPayload_spec : Obligations.StatusPayload := by
  intro s d listening
  refine ⟨_, onFrame_listening listening rfl, ?_, fun f hf => ?_⟩
  · show (statusPayload s).length = 200
    rw [statusPayload_eq, length_fieldBytes, places_statusTable]
    decide +kernel
  · show ((statusPayload s).drop f.1).take f.2.1 = _
    rw [statusPayload_eq]
    exact (field_of_laid (laid_statusTable s) f hf).2

end Sys2Proof.Machine
end

section
/-! The configuration commands: their checks in order, and what an accepted one sets. -/

namespace Sys2Proof.Machine

-- One declaration at a time: elaborated in parallel, many quick ones exceed the memory limit.
set_option Elab.async false

theorem isSwitch_iff (b : Byte) : isSwitch b = true ↔ b = 0 ∨ b = 1 := by simp [isSwitch]

theorem isSwitch_false_iff (b : Byte) : isSwitch b = false ↔ ¬ (b = 0 ∨ b = 1) := by
  rw [← isSwitch_iff, Bool.not_eq_true]

theorem configurable_false_iff (s : State) : configurable s = false ↔ ¬ Unrestricted s := by
  rw [← configurable_iff, Bool.not_eq_true]

theorem configurable_of_unrestricted {s : State} (h : Unrestricted s) : ¬ configurable s = false := by
  rw [configurable_false_iff, not_not]
  exact h

/-- Two runs share a line. -/
theorem runsMeet_iff {base count base' count' : Nat} : runsMeet base count base' count' = true
    ↔ ∃ line, (base ≤ line ∧ line < base + count) ∧ base' ≤ line ∧ line < base' + count' := by
  rw [runsMeet, decide_eq_true_iff]
  refine ⟨fun h => ⟨max base base', ?_, ?_⟩, fun ⟨line, h, h'⟩ => ?_⟩ <;> omega

/-! ## SET_MEMORY_SIZE and SET_WINDOW -/

section
variable {s : State} {d : Decoder}

theorem execSetMemorySize_refused {size : BitVec 40} {st : Byte} (h : Listening s d)
    (check : checkMemorySize size.toNat s = some st) :
    execSetMemorySize size s = .next (answered d st [] s) :=
  onFrame_gives (a := refuse st s) h (by simp only [check]) rfl

theorem execSetMemorySize_accepted {size : BitVec 40} (h : Listening s d)
    (check : checkMemorySize size.toNat s = none) : execSetMemorySize size s
      = .next (answered d 0x00 [] { s with cls := { s.cls with memSize := size.toNat } }) :=
  onFrame_gives (a := done _) h (by simp only [check]; rfl) rfl

theorem execSetWindow_refused {index enable : Byte} {base count : BitVec 40} {st : Byte} (h : Listening s d)
    (check : checkWindow index enable base.toNat count.toNat s = some st) :
    execSetWindow index enable base count s = .next (answered d st [] s) :=
  onFrame_gives (a := refuse st s) h (by simp only [check]) rfl

theorem execSetWindow_accepted {index enable : Byte} {base count : BitVec 40} (h : Listening s d)
    (check : checkWindow index enable base.toNat count.toNat s = none) {i : Fin 8} (hi : i.val = index.toNat) :
    execSetWindow index enable base count s = .next (answered d 0x00 [] { s with cls := { s.cls with
      windows := s.cls.windows.set i.val ⟨enable == 1, base.toNat, count.toNat⟩ i.isLt } }) := by
  have place : index.toNat % 8 = i.val := by omega
  exact onFrame_gives (a := done _) h (by simp only [check, place]; rfl) rfl

/-- The run of a window to be set meets no other enabled window and not the log area. -/
theorem meets_iff {index : Byte} {base count : Nat} :
    (meetsWindow index.toNat base count s.cls = true ∨ meetsLog base count s.log = true)
      ↔ ¬ ∀ line, base ≤ line → line < base + count →
        (∀ i : Fin 8, i.val ≠ index.toNat → (s.cls.windows.get i).enable = true →
          ¬ ((s.cls.windows.get i).base ≤ line
            ∧ line < (s.cls.windows.get i).base + (s.cls.windows.get i).count))
        ∧ (s.log.configured = true → ¬ (s.log.base ≤ line ∧ line < s.log.base + 2 * s.log.capacity)) := by
  have window : meetsWindow index.toNat base count s.cls = true ↔ ∃ i : Fin 8, i.val ≠ index.toNat
      ∧ (s.cls.windows.get i).enable = true ∧ ∃ line, (base ≤ line ∧ line < base + count)
        ∧ (s.cls.windows.get i).base ≤ line ∧ line < (s.cls.windows.get i).base + (s.cls.windows.get i).count := by
    simp only [meetsWindow, List.any_eq_true, List.mem_finRange, true_and, Bool.and_eq_true, bne_iff_ne,
      runsMeet_iff, and_assoc]
  have log : meetsLog base count s.log = true ↔ s.log.configured = true ∧ ∃ line,
      (base ≤ line ∧ line < base + count) ∧ s.log.base ≤ line ∧ line < s.log.base + 2 * s.log.capacity := by
    simp only [meetsLog, Bool.and_eq_true, runsMeet_iff]
  rw [window, log]
  constructor
  · rintro (⟨i, other, enabled, line, run, inside⟩ | ⟨configured, line, run, inside⟩) alone
    · exact (alone line run.1 run.2).1 i other enabled inside
    · exact (alone line run.1 run.2).2 configured inside
  · intro h
    by_contra none
    rw [not_or] at none
    refine h fun line low high => ⟨fun i other enabled inside => none.1 ?_, fun configured inside => none.2 ?_⟩
    · exact ⟨i, other, enabled, line, ⟨low, high⟩, inside⟩
    · exact ⟨configured, line, ⟨low, high⟩, inside⟩

end

theorem setMemorySize_spec {s : State} {d : Decoder} {size : BitVec 40} (h : Listening s d) :
    let bad := size.toNat = 0 ∨ 2 ^ 34 < size.toNat
      ∨ (s.log.configured = true ∧ size.toNat < s.log.base + 2 * s.log.capacity)
      ∨ ∃ w ∈ s.cls.windows.toList, w.enable = true ∧ size.toNat < w.base + w.count
    (¬ Unrestricted s → exec (.setMemorySize size) s = .next (answered d 0x11 [] s))
      ∧ (Unrestricted s → bad → exec (.setMemorySize size) s = .next (answered d 0x12 [] s))
      ∧ (Unrestricted s → ¬ bad → exec (.setMemorySize size) s
          = .next (answered d 0x00 [] { s with cls := { s.cls with memSize := size.toNat } })) := by
  intro bad
  have window : (s.cls.windows.toList.any fun w => w.enable && decide (size.toNat < w.base + w.count)) = true
      ↔ ∃ w ∈ s.cls.windows.toList, w.enable = true ∧ size.toNat < w.base + w.count := by
    simp only [List.any_eq_true, Bool.and_eq_true, decide_eq_true_eq]
  refine ⟨fun restricted => execSetMemorySize_refused h (if_pos ((configurable_false_iff s).mpr restricted)),
    fun free isBad => execSetMemorySize_refused h ?_, fun free good => execSetMemorySize_accepted h ?_⟩
  all_goals rw [checkMemorySize, if_neg (configurable_of_unrestricted free)]
  · split_ifs with size0 log win
    · rfl
    · rfl
    · rfl
    · rw [window] at win
      rw [not_or] at size0
      exact absurd isBad (by simpa only [bad, not_or] using ⟨size0.1, size0.2, log, win⟩)
  · simp only [bad, not_or] at good
    obtain ⟨size0, big, log, win⟩ := good
    rw [if_neg (by simpa using ⟨size0, not_lt.mp big⟩), if_neg log, if_neg (window.not.mpr win)]

theorem setWindow_spec {s : State} {d : Decoder} {index enable : Byte} {base count : BitVec 40} (h : Listening s d) :
    let fields := index.toNat < 8 ∧ (enable = 0 ∨ enable = 1) ∧ base.toNat < 2 ^ 34 ∧ count.toNat ≤ 2 ^ 34
    let fits := enable = 1 → 1 ≤ count.toNat ∧ base.toNat + count.toNat ≤ s.cls.memSize
    let alone := enable = 1 → ∀ line, base.toNat ≤ line → line < base.toNat + count.toNat →
      (∀ i : Fin 8, i.val ≠ index.toNat → (s.cls.windows.get i).enable = true →
        ¬ ((s.cls.windows.get i).base ≤ line
          ∧ line < (s.cls.windows.get i).base + (s.cls.windows.get i).count))
      ∧ (s.log.configured = true → ¬ (s.log.base ≤ line ∧ line < s.log.base + 2 * s.log.capacity))
    (¬ Unrestricted s → exec (.setWindow index enable base count) s = .next (answered d 0x11 [] s))
      ∧ (Unrestricted s → ¬ (fields ∧ fits) →
          exec (.setWindow index enable base count) s = .next (answered d 0x12 [] s))
      ∧ (Unrestricted s → fields ∧ fits → ¬ alone →
          exec (.setWindow index enable base count) s = .next (answered d 0x13 [] s))
      ∧ (Unrestricted s → fields ∧ fits → alone → ∀ i : Fin 8, i.val = index.toNat →
          exec (.setWindow index enable base count) s
            = .next (answered d 0x00 [] { s with cls := { s.cls with
                windows := s.cls.windows.set i.val ⟨enable == 1, base.toNat, count.toNat⟩ i.isLt } })) := by
  intro fields fits alone
  have badFields : (8 ≤ index.toNat ∨ isSwitch enable = false ∨ Config.maxLines ≤ base.toNat
      ∨ Config.maxLines < count.toNat) ↔ ¬ fields := by
    simp only [fields, isSwitch_false_iff, Config.maxLines, not_and_or, not_lt, not_le]
  have badFit : (enable = 1 ∧ (count.toNat = 0 ∨ s.cls.memSize < base.toNat + count.toNat)) ↔ ¬ fits := by
    simp only [fits, Classical.not_imp, not_and_or, not_le, Nat.lt_one_iff]
  have overlap : (enable = 1 ∧ (meetsWindow index.toNat base.toNat count.toNat s.cls = true
      ∨ meetsLog base.toNat count.toNat s.log = true)) ↔ ¬ alone := by
    rw [meets_iff, ← Classical.not_imp]
  refine ⟨fun restricted => execSetWindow_refused h (if_pos ((configurable_false_iff s).mpr restricted)),
    fun free bad => execSetWindow_refused h ?_, fun free good bad => execSetWindow_refused h ?_,
    fun free good single i hi => execSetWindow_accepted h ?_ hi⟩
  all_goals rw [checkWindow, if_neg (configurable_of_unrestricted free)]
  · by_cases fieldsOk : fields
    · rw [if_neg (badFields.not.mpr (not_not.mpr fieldsOk)), if_pos (badFit.mpr fun fit => bad ⟨fieldsOk, fit⟩)]
    · rw [if_pos (badFields.mpr fieldsOk)]
  · rw [if_neg (badFields.not.mpr (not_not.mpr good.1)), if_neg (badFit.not.mpr (not_not.mpr good.2)),
      if_pos (overlap.mpr bad)]
  · rw [if_neg (badFields.not.mpr (not_not.mpr good.1)), if_neg (badFit.not.mpr (not_not.mpr good.2)),
      if_neg (overlap.not.mpr (not_not.mpr single))]

/-- Settles O20: each check of the two commands says what the statement says. -/
theorem setMemorySizeAndWindow : Obligations.SetMemorySizeAndWindow :=
  ⟨fun _ _ _ h => setMemorySize_spec h, fun _ _ _ _ _ _ h => setWindow_spec h⟩

/-! ## SET_LOG -/

theorem isCapacity_iff (c : BitVec 32) : isCapacity c = true ↔ ∃ k, 4 ≤ k ∧ k ≤ 26 ∧ c.toNat = 2 ^ k := by
  have power (h : c.toNat ≠ 0) : c &&& (c - 1) = 0 ↔ c.toNat.isPowerOfTwo := by
    rw [← Nat.and_sub_one_eq_zero_iff_isPowerOfTwo h, ← BitVec.toNat_inj, BitVec.toNat_and]
    rw [show (c - 1).toNat = c.toNat - 1 by bv_omega]
    rfl
  simp only [isCapacity, Bool.and_eq_true, decide_eq_true_eq, beq_iff_eq, Config.recordsMax]
  constructor
  · rintro ⟨⟨low, high⟩, bits⟩
    obtain ⟨k, hk⟩ := (power (by omega)).mp bits
    rw [hk] at low high
    exact ⟨k, (Nat.pow_le_pow_iff_right (by decide : 1 < 2)).mp low, (Nat.pow_le_pow_iff_right (by decide : 1 < 2)).mp high, hk⟩
  · rintro ⟨k, low, high, hk⟩
    have low' : 2 ^ 4 ≤ 2 ^ k := Nat.pow_le_pow_right (by decide) low
    have high' : 2 ^ k ≤ 2 ^ 26 := Nat.pow_le_pow_right (by decide) high
    exact ⟨⟨by omega, by omega⟩, (power (by omega)).mpr ⟨k, hk⟩⟩

theorem meetsAnyWindow_iff {base count : Nat} {c : Classifier} : meetsAnyWindow base count c = true
    ↔ ¬ ∀ line, base ≤ line → line < base + count →
      ∀ w ∈ c.windows.toList, w.enable = true → ¬ (w.base ≤ line ∧ line < w.base + w.count) := by
  simp only [meetsAnyWindow, List.any_eq_true, Bool.and_eq_true, runsMeet_iff]
  constructor
  · rintro ⟨w, hw, enabled, line, run, inside⟩ alone
    exact alone line run.1 run.2 w hw enabled inside
  · intro h
    by_contra none
    exact h fun line low high w hw enabled inside => none ⟨w, hw, enabled, line, ⟨low, high⟩, inside⟩

theorem execSetLog_refused {s : State} {d : Decoder} {base : BitVec 40} {capacity : BitVec 32} {policy : Byte}
    {stallLimit : BitVec 16} {watermark : BitVec 32} {st : Byte} (h : Listening s d)
    (check : checkLog base.toNat capacity policy watermark.toNat s = some st) :
    execSetLog base capacity policy stallLimit watermark s = .next (answered d st [] s) :=
  onFrame_gives (a := refuse st s) h (by simp only [check]) rfl

/-- Settles O21: the checks are those of the statement, and the log is configuredLog. -/
theorem setLog_spec : Obligations.SetLog := by
  intro s d base capacity policy stallLimit watermark h c free fields alone
  have badFields : (isSwitch policy = false ∨ base.toNat % 2 = 1 ∨ Config.maxLines ≤ base.toNat
      ∨ isCapacity capacity = false ∨ capacity.toNat < watermark.toNat
      ∨ s.cls.memSize < base.toNat + 2 * capacity.toNat) ↔ ¬ fields := by
    rw [← Bool.not_eq_true (isCapacity capacity), isCapacity_iff]
    simp only [fields, isSwitch_false_iff, Config.maxLines, not_and_or, not_lt, not_le, Nat.mod_two_ne_zero]
  have check (isFree : free) : checkLog base.toNat capacity policy watermark.toNat s =
      if isSwitch policy = false ∨ base.toNat % 2 = 1 ∨ Config.maxLines ≤ base.toNat ∨ isCapacity capacity = false
        ∨ capacity.toNat < watermark.toNat ∨ s.cls.memSize < base.toNat + 2 * capacity.toNat then some stRange
      else if meetsAnyWindow base.toNat (2 * capacity.toNat) s.cls then some stOverlap
      else none := by
    rw [checkLog, if_neg (configurable_of_unrestricted isFree.1), if_neg (not_not.mpr isFree.2)]
  refine ⟨fun restricted => execSetLog_refused h ?_, fun isFree bad => execSetLog_refused h ?_,
    fun isFree good bad => execSetLog_refused h ?_, fun isFree good single => ?_⟩
  · rw [checkLog]
    split_ifs with conf position
    · rfl
    · rfl
    all_goals
      rw [configurable_false_iff, not_not] at conf
      exact absurd ⟨conf, not_not.mp position⟩ restricted
  · rw [check isFree, if_pos (badFields.mpr bad)]
  · rw [check isFree, if_neg (badFields.not.mpr (not_not.mpr good)), if_pos (meetsAnyWindow_iff.mpr bad)]
  · have passed : checkLog base.toNat capacity policy watermark.toNat s = none := by
      rw [check isFree, if_neg (badFields.not.mpr (not_not.mpr good)),
        if_neg (meetsAnyWindow_iff.not.mpr (not_not.mpr single))]
    have zero : watermark = 0 ↔ watermark.toNat = 0 := by rw [← BitVec.toNat_inj]; rfl
    show execSetLog base capacity policy stallLimit watermark s = _
    refine onFrame_gives (a := done _) h ?_ rfl
    simp only [passed, zero]
    rfl

/-! ## SET_DOWNSTREAM and SET_CASCADE -/

theorem isWeight_false_iff (w : Byte) : isWeight w = false ↔ ¬ (1 ≤ w.toNat ∧ w.toNat ≤ 15) := by
  rw [← Bool.not_eq_true, isWeight, Bool.and_eq_true, decide_eq_true_iff, decide_eq_true_iff]

theorem setDownstream_spec {s : State} {d : Decoder} (h : Listening s d) (limit host preserve restore : Byte)
    (timeout : BitVec 16) :
    let c := Instr.setDownstream limit host preserve restore timeout
    let fields := 1 ≤ limit.toNat ∧ limit.toNat ≤ 32 ∧ 1 ≤ host.toNat ∧ host.toNat ≤ 15
      ∧ 1 ≤ preserve.toNat ∧ preserve.toNat ≤ 15 ∧ 1 ≤ restore.toNat ∧ restore.toNat ≤ 15
    (¬ Unrestricted s → exec c s = .next (answered d 0x11 [] s))
      ∧ (Unrestricted s → ¬ fields → exec c s = .next (answered d 0x12 [] s))
      ∧ (Unrestricted s → fields → s.down.channel.isSome = true →
          exec c s = .next (answered d 0x00 [] { s with down := { s.down with
            limit := limit.toNat, wHost := host.toNat, wPreserve := preserve.toNat
            wRestore := restore.toNat, timeout := timeout.toNat } })) := by
  intro c fields
  have badFields : (limit.toNat = 0 ∨ 32 < limit.toNat ∨ isWeight host = false ∨ isWeight preserve = false
      ∨ isWeight restore = false) ↔ ¬ fields := by
    simp only [fields, isWeight_false_iff]
    omega
  have refused {st : Byte} (check : checkDownstream limit host preserve restore s = some st) :
      execSetDownstream limit host preserve restore timeout s = .next (answered d st [] s) :=
    onFrame_gives (a := refuse st s) h (by simp only [check]) rfl
  refine ⟨fun restricted => refused (if_pos ((configurable_false_iff s).mpr restricted)), fun free bad => refused ?_,
    fun free good busy => ?_⟩
  · rw [checkDownstream, if_neg (configurable_of_unrestricted free), if_pos (badFields.mpr bad)]
  · have passed : checkDownstream limit host preserve restore s = none := by
      rw [checkDownstream, if_neg (configurable_of_unrestricted free), if_neg (badFields.not.mpr (not_not.mpr good))]
    show execSetDownstream limit host preserve restore timeout s = _
    refine onFrame_gives (a := done _) h ?_ rfl
    simp only [passed]
    rw [grantIfDue_busy (by exact busy)]
    rfl

theorem roleOf_iff (b : Byte) : (b.toNat ≤ 2 → roleOf b
      = some (if b = 0 then .solo else if b = 1 then .leader else .follower))
    ∧ (¬ b.toNat ≤ 2 → roleOf b = none) := by
  unfold roleOf
  constructor
  · intro low
    split_ifs with h0 h1 h2
    · rfl
    · rfl
    · rfl
    · exact absurd low (by bv_omega)
  · intro high
    rw [if_neg (by bv_omega), if_neg (by bv_omega), if_neg (by bv_omega)]

theorem setCascade_spec {s : State} {d : Decoder} (h : Listening s d) (role last : Byte)
    (agreementLimit holdLimit : BitVec 16) :
    let c := Instr.setCascade role last agreementLimit holdLimit
    let fields := role.toNat ≤ 2 ∧ (last = 0 ∨ last = 1) ∧ agreementLimit ≠ 0 ∧ holdLimit ≠ 0
    (¬ Unrestricted s → exec c s = .next (answered d 0x11 [] s))
      ∧ (Unrestricted s → ¬ fields → exec c s = .next (answered d 0x12 [] s))
      ∧ (Unrestricted s → fields →
          exec c s = .next (answered d 0x00 [] { s with casc := { s.casc with
            role := if role = 0 then .solo else if role = 1 then .leader else .follower
            last := last == 1
            agreementLimit := agreementLimit.toNat, holdLimit := holdLimit.toNat
            abandoned := none, upList := [], downList := [] } })) := by
  intro c fields
  have badFields : (isSwitch last = false ∨ agreementLimit = 0 ∨ holdLimit = 0)
      ↔ ¬ ((last = 0 ∨ last = 1) ∧ agreementLimit ≠ 0 ∧ holdLimit ≠ 0) := by
    simp only [isSwitch_false_iff, not_and_or, not_not, ne_eq]
  change let run := execSetCascade role last agreementLimit holdLimit s; (_ → run = _) ∧ (_ → _ → run = _) ∧ (_ → _ → run = _)
  refine ⟨fun restricted => ?_, fun free bad => ?_, fun free good => ?_⟩
  · exact onFrame_gives (a := refuse stState s) h (if_pos ((configurable_false_iff s).mpr restricted)) rfl
  · refine onFrame_gives (a := refuse stRange s) h ?_ rfl
    rw [if_neg (configurable_of_unrestricted free)]
    by_cases known : role.toNat ≤ 2
    · rw [(roleOf_iff role).1 known]
      exact if_pos (badFields.mpr fun rest => bad ⟨known, rest⟩)
    · rw [(roleOf_iff role).2 known]
  · refine onFrame_gives (a := done _) h ?_ rfl
    rw [if_neg (configurable_of_unrestricted free), (roleOf_iff role).1 good.1]
    exact if_neg (badFields.not.mpr (not_not.mpr good.2))

/-- Settles O22: the checks of the two commands and their settings. -/
theorem setDownstreamAndCascade : Obligations.SetDownstreamAndCascade := fun _ _ h =>
  ⟨setDownstream_spec h, setCascade_spec h⟩

/-! ## SET_TRIGGERS -/

section
variable {s : State} {d : Decoder} {line : Byte} {interval : BitVec 16} {auto rolling : Byte}

theorem isSwitch_iff_le (b : Byte) : isSwitch b = true ↔ b.toNat ≤ 1 := by
  rw [isSwitch_iff]
  constructor
  · rintro (rfl | rfl) <;> decide
  · intro h
    rw [or_iff_not_imp_left]
    intro h0
    bv_omega

/-- What an accepted SET_TRIGGERS sets, before the trigger check (R23, R18, R21). -/
def triggersSet (line : Byte) (interval : BitVec 16) (auto rolling : Byte) (s : State) : State :=
  let t := setTriggers (line == 1) interval.toNat (auto == 1) (rolling == 1) s
  latchIf (isHeld t && newlyServable s t) .triggerMissed t

theorem execSetTriggers_refused (h : Listening s d) (bad : ¬ (line.toNat ≤ 1 ∧ auto.toNat ≤ 1 ∧ rolling.toNat ≤ 1)) :
    execSetTriggers line interval auto rolling s = .next (answered d 0x12 [] s) := by
  refine onFrame_gives (a := refuse stRange s) h (if_pos ?_) rfl
  simp only [← Bool.not_eq_true, isSwitch_iff_le]
  omega

theorem execSetTriggers_accepted (h : Listening s d) (good : line.toNat ≤ 1 ∧ auto.toNat ≤ 1 ∧ rolling.toNat ≤ 1) :
    execSetTriggers line interval auto rolling s
      = .next (answered d 0x00 [] (portFollow (triggerCheck (triggersSet line interval auto rolling s)))) := by
  have kept : (portFollow (triggerCheck (triggersSet line interval auto rolling s))).mgmt.warmPending
      = s.mgmt.warmPending := by simp [triggersSet, setTriggers]
  refine onFrame_gives (a := done _) h (if_neg ?_) kept
  simp only [← Bool.not_eq_true, isSwitch_iff_le]
  omega

/-- A trigger check leaves a cleared TIMER flag cleared: it clears flags only (R9, R21). -/
theorem triggerCheck_timerFlag (h : s.ckpt.timerFlag = false) : (triggerCheck s).ckpt.timerFlag = false := by
  unfold triggerCheck
  split
  · exact h
  split
  · exact h
  split
  · simp [missTrigger, clearFlags]
  · simp [startTake, clearFlags, setCtrl, raiseFence]

theorem triggersSet_fields : (triggersSet line interval auto rolling s).ckpt = { s.ckpt with
    lineEnable := line == 1, interval := interval.toNat, autoTake := auto == 1
    rolling := rolling == 1, intervalCount := interval.toNat, intervalMicros := 0
    timerFlag := false } := by
  simp [triggersSet, setTriggers]

/-- Outside HELD only the settings change. -/
theorem triggersSet_notHeld (h : isHeld s = false) :
    triggersSet line interval auto rolling s
      = setTriggers (line == 1) interval.toNat (auto == 1) (rolling == 1) s := by
  have same : isHeld (setTriggers (line == 1) interval.toNat (auto == 1) (rolling == 1) s) = isHeld s := rfl
  rw [triggersSet, same, h]
  rfl

theorem longOp_of_held (h : isHeld s = true) : longOp s = true := by
  obtain ⟨r, hr⟩ := (isHeld_iff s).mp h
  simp [longOp, hr]

/-- In HELD at a solo unit a set LINE flag is made servable by enabling line triggering (R21, R23). -/
theorem newlyServable_line (solo : s.casc.role = .solo) (flag : s.ckpt.lineFlag = true)
    (disabled : s.ckpt.lineEnable = false) :
    newlyServable s (setTriggers (line == 1) interval.toNat (auto == 1) (rolling == 1) s) = (line == 1) := by
  have notFollower : (Role.solo != Role.follower) = true := rfl
  have notLeader : (Role.solo == Role.leader) = false := rfl
  simp [newlyServable, servable, setTriggers, State.onCkpt, solo, flag, disabled, notFollower, notLeader]

/-- With the CASCADE flag clear and no servable LINE flag, nothing is due once the TIMER flag is cleared. -/
theorem dueSource_afterSet (cascade : s.ckpt.cascadeFlag = false) (lineOff : s.ckpt.lineFlag = false ∨ line = 0) :
    dueSource (setTriggers (line == 1) interval.toNat (auto == 1) (rolling == 1) s) = none := by
  rcases lineOff with off | rfl
  · simp [dueSource, servable, setTriggers, State.onCkpt, cascade, off]
  · simp [dueSource, servable, setTriggers, State.onCkpt, cascade]

end

/-- Settles O23: refused out of range; else the settings, and what the trigger check and HELD add. -/
theorem setTriggers_spec : Obligations.SetTriggers := by
  intro s d line interval auto rolling h c fields t
  have accepted (good : fields) (quiet : ChannelsBusy s)
      (none : longOp (triggersSet line interval auto rolling s) = true
        ∨ dueSource (triggersSet line interval auto rolling s) = none) :
      exec c s = .next (answered d 0x00 [] (triggersSet line interval auto rolling s)) := by
    refine (execSetTriggers_accepted h good).trans ?_
    rw [triggerCheck_idle none, portFollow_busy ⟨by simpa [triggersSet, setTriggers] using quiet.1,
      by simpa [triggersSet, setTriggers] using quiet.2⟩]
  refine ⟨execSetTriggers_refused h, fun good => ⟨_, execSetTriggers_accepted h good, ?_⟩, fun good quiet away idle => ?_,
    fun good quiet held solo flag disabled => ?_⟩
  · have timer : (triggerCheck (triggersSet line interval auto rolling s)).ckpt.timerFlag = false :=
      triggerCheck_timerFlag (by simp [triggersSet_fields])
    exact ⟨⟨rfl, rfl⟩, by simpa [answered, triggersSet_fields] using timer⟩
  · have set := triggersSet_notHeld (line := line) (interval := interval) (auto := auto) (rolling := rolling) away
    refine (accepted good quiet ?_).trans (by rw [set]; rfl)
    rw [set]
    refine idle.imp (fun busy => ?_) fun ⟨cascade, lineOff⟩ => dueSource_afterSet cascade lineOff
    simp [longOp, setTriggers, State.onCkpt, busy]
  · refine (accepted good quiet (.inl (longOp_of_held (by simpa [isHeld, triggersSet_fields] using held)))).trans ?_
    have same : isHeld (setTriggers (line == 1) interval.toNat (auto == 1) (rolling == 1) s) = true := held
    simp only [triggersSet, newlyServable_line solo flag disabled, same, Bool.true_and, latchIf, beq_iff_eq]
    split_ifs <;> rfl

end Sys2Proof.Machine
end

section
/-! Takes and settles: the commands that start an operation, and the settle that ends its first phase. -/

namespace Sys2Proof.Machine

-- One declaration at a time: elaborated in parallel, many quick ones exceed the memory limit.
set_option Elab.async false

/-! ## Follow-ups -/

theorem event_of_not_inReset {s : State} (h : inReset s = false) (f : State → State) : event s f = .next (f s) :=
  event_taken h

/-- After a settle with no send and no trigger check due, only the ports follow. -/
theorem afterSettle_ports {b t : State} (follow : cascadeFollow t = t)
    (check : longOp b = false ∨ longOp t = true ∨ dueSource t = none) : afterSettle b t = portFollow t := by
  rw [afterSettle]
  simp only [follow]
  rcases check with h | h
  · simp [h]
  · rw [triggerCheck_idle h]
    simp

/-- With no grant and no offer due either, nothing follows. -/
theorem afterSettle_still {b t : State} (follow : cascadeFollow t = t)
    (check : longOp b = false ∨ longOp t = true ∨ dueSource t = none) (ports : portFollow t = t) :
    afterSettle b t = t := (afterSettle_ports follow check).trans ports

/-- So too at the end of any event after which no settle is due. -/
theorem follow_still {b t : State} (settles : settle t = t) (follow : cascadeFollow t = t)
    (check : longOp b = false ∨ longOp t = true ∨ dueSource t = none) (ports : portFollow t = t) :
    portFollow (controlFollow b t) = t := by
  have after : portFollow (controlFollow b t) = afterSettle b t := by rw [controlFollow, afterSettle, settles]
  rw [after, afterSettle_still follow check ports]

theorem longOp_of_ctrl {s : State} (h : s.ckpt.ctrl ≠ .idle) : longOp s = true := by simp [longOp, h]

theorem modAgreement_some {s : State} {a : Agreement} (h : s.casc.agreement = some a) (f : Agreement → Agreement) :
    modAgreement f s = { s with casc := { s.casc with agreement := some (f a) } } := by
  simp [modAgreement, State.onCasc, h]

theorem modAgreement_none {s : State} (h : s.casc.agreement = none) (f : Agreement → Agreement) :
    modAgreement f s = s := by
  show { s with casc := { s.casc with agreement := s.casc.agreement.map f } } = s
  rw [h, Option.map_none, ← h]

/-! ## The start of an operation -/

/-- A take begun, its agreement apart (R9). -/
def takeBegun (src : Source) (s : State) : State := { s with
  ckpt := { s.ckpt with fence := true, ctrl := .settling .take src, lineFlag := false
                        timerFlag := false, cascadeFlag := false }
  mgmt := { s.mgmt with counters := { s.mgmt.counters with
    triggersMerged := satAdd s.mgmt.counters.triggersMerged
      (flagCount s.ckpt - (if src = .command then 0 else 1)) } } }

theorem startTake_eq (src : Source) (s : State) : startTake src s = agreeIfLeader .take src (takeBegun src s) := rfl

theorem agreeIfLeader_solo {s : State} (h : s.casc.role ≠ .leader) (g : Goal) (src : Source) :
    agreeIfLeader g src s = s := if_neg h

/-- A leader's agreement begun, with room on its DOWN list (R161). -/
def agreementBegun (g : Goal) (src : Source) (c : Cascade) : Cascade := { c with
  opId := c.opId + 1
  agreement := some (newAgreement (c.opId + 1) g src .awaited c.agreementLimit)
  downList := c.downList ++ [prepareOf (c.opId + 1) g] }

theorem agreeIfLeader_leader {s : State} (h : s.casc.role = .leader) (room : s.casc.downList.length < 4) (g : Goal)
    (src : Source) : agreeIfLeader g src s = { s with casc := agreementBegun g src s.casc } := by
  rw [agreeIfLeader, if_pos h, startAgreement]
  exact produce_down room

/-! ## TAKE and ROLLBACK: the checks -/

section
variable {s : State} {d : Decoder} {k : CkptNumber} {st : Byte}

theorem execTake_refused (h : Listening s d) (check : checkTake s = some st) :
    execTake s = .next (answered d st [] s) :=
  onFrame_gives (a := refuse st s) h (by simp only [check]) rfl

theorem execTake_accepted (h : Listening s d) (check : checkTake s = none) :
    execTake s = .next (answered d 0x01 [] (settle (startTake .command s))) := by
  refine onFrame_gives (a := ⟨stAccepted, [], settle (startTake .command s)⟩) h (by simp only [check]) ?_
  simp [startTake_eq, takeBegun]

theorem execRollback_refused (h : Listening s d) (check : checkRollback k s = some st) :
    execRollback k s = .next (answered d st [] s) :=
  onFrame_gives (a := refuse st s) h (by simp only [check]) rfl

theorem execRollback_accepted (h : Listening s d) (check : checkRollback k s = none) :
    execRollback k s = .next (answered d 0x01 []
      (portFollow (controlFollow (acceptRollback k s) (acceptRollback k s)))) := by
  refine onFrame_gives
    (a := ⟨stAccepted, [], portFollow (controlFollow (acceptRollback k s) (acceptRollback k s))⟩) h
    (by simp only [check]) ?_
  simp [acceptRollback, beginRollback, clearUnrestored, setCtrl, raiseFence]

theorem checkTake_idle (role : s.casc.role ≠ .follower) (none : s.casc.agreement = none) (idle : s.ckpt.ctrl = .idle) :
    checkTake s = if s.log.configured = false then some stNoLog else if stackFull s then some stStackFull else Option.none := by
  simp [checkTake, role, none, idle, isHeld]

theorem checkRollback_startable (role : s.casc.role ≠ .follower) (none : s.casc.agreement = none)
    (ctrl : s.ckpt.ctrl = .idle ∨ ∃ h, s.ckpt.ctrl = .held h) :
    checkRollback k s = if k = 0 then some stRange else if (findCkpt k s).isNone then some stNotFound
      else if targetLive k s = false then some stBroken else Option.none := by
  have startable : ¬ (s.ckpt.ctrl ≠ .idle ∧ isHeld s = false) := by
    rw [← Bool.not_eq_true, isHeld_iff]
    tauto
  rw [checkRollback, if_neg role, if_neg (by simp [none]), if_neg startable]

theorem targetLive_of_found {r : CkptRecord} (h : findCkpt k s = some r) : targetLive k s = (r.state == .live) := by
  simp [targetLive, h]

theorem findCkpt_isNone_iff : (findCkpt k s).isNone = true ↔ ∀ r ∈ s.ckpt.stack, r.number ≠ k := by
  simp [findCkpt]

end

/-- Settles O27: the checks of the two commands, in order. -/
theorem longCommandRefusals : Obligations.LongCommandRefusals := by
  intro s d k h take rollback
  have refused {st : Byte} (t : checkTake s = some st) (r : checkRollback k s = some st) : take st ∧ rollback st :=
    ⟨execTake_refused h t, execRollback_refused h r⟩
  refine ⟨fun role => refused (if_pos role) (if_pos role), fun role busy => ?_, fun role free => ⟨?_, ?_, ?_, ?_, ?_⟩⟩
  · exact refused (by rw [checkTake, if_neg role, if_pos busy]) (by rw [checkRollback, if_neg role, if_pos busy])
  · intro held
    exact execTake_refused h (by rw [checkTake, if_neg role, if_neg (by simp [free]), if_pos ((isHeld_iff s).mpr held)])
  · intro away busy
    have notHeld : isHeld s = false := by
      rw [← Bool.not_eq_true, isHeld_iff]
      exact fun ⟨r, hr⟩ => away r hr
    exact refused (by rw [checkTake, if_neg role, if_neg (by simp [free]), if_neg (by simp [notHeld]), if_pos busy])
      (by rw [checkRollback, if_neg role, if_neg (by simp [free]), if_pos ⟨busy, notHeld⟩])
  · intro idle unconfigured
    exact execTake_refused h (by rw [checkTake_idle role free idle, if_pos unconfigured])
  · intro idle configured full
    exact execTake_refused h (by
      rw [checkTake_idle role free idle, if_neg (by simp [configured]), if_pos (by simpa [stackFull] using full)])
  · intro ctrl
    have check := checkRollback_startable (k := k) role free ctrl
    refine ⟨fun zero => ?_, fun nonzero absent => ?_, fun r nonzero found broken => ?_⟩
    · exact execRollback_refused h (by rw [check, if_pos zero])
    · exact execRollback_refused h (by rw [check, if_neg nonzero, if_pos (findCkpt_isNone_iff.mpr absent)])
    · refine execRollback_refused h ?_
      rw [check, if_neg nonzero, if_neg (by simp [found]), if_pos (by rw [targetLive_of_found found, broken]; rfl)]

/-! ## Takes -/

theorem checkTake_accepted {s : State} (role : s.casc.role ≠ .follower) (free : s.casc.agreement = none)
    (idle : s.ckpt.ctrl = .idle) (configured : s.log.configured = true) (room : s.ckpt.stack.length < 8) :
    checkTake s = none := by
  rw [checkTake_idle role free idle, if_neg (by simp [configured]), if_neg (by simp [stackFull]; omega)]

theorem flagCount_eq (c : Controller) : flagCount c - 0 = c.lineFlag.toNat + c.timerFlag.toNat + c.cascadeFlag.toNat := rfl

/-- Settles O28: the take begins, and with the tracker unsettled nothing follows. -/
theorem takeStarts : Obligations.TakeStarts := by
  intro s d h free idle configured room unsettled t
  have begun (c : Cascade) : settle { takeBegun .command s with casc := c } = { takeBegun .command s with casc := c } :=
    settle_unsettled unsettled
  refine ⟨fun solo => ?_, fun leader space => ?_⟩
  · refine (execTake_accepted h (checkTake_accepted (by simp [solo]) free idle configured room)).trans ?_
    rw [startTake_eq, agreeIfLeader_solo (by simp [takeBegun, solo])]
    exact congrArg _ (congrArg (answered d 0x01 []) (begun s.casc))
  · refine (execTake_accepted h (checkTake_accepted (by simp [leader]) free idle configured room)).trans ?_
    rw [startTake_eq, agreeIfLeader_leader (by exact leader) (by exact space)]
    exact congrArg _ (congrArg (answered d 0x01 []) (begun (agreementBegun .take .command s.casc)))

/-- The settle of a take in SETTLING(TAKE) is the push, or AGREEING in a chain. -/
theorem settleTake_settling {s : State} {src : Source} (ctrl : s.ckpt.ctrl = .settling .take src)
    (tracker : settled s = true) :
    settleTake s = if s.casc.role = .solo then soloPush src s else enterAgreeing .take src s := by
  simp [settleTake, ctrl, tracker]

theorem soloPush_fields (src : Source) (s : State) : soloPush src s = { s with
    ckpt := { s.ckpt with
      stack := s.ckpt.stack ++ [⟨assignedNumber s, s.log.head, .live, 0, src⟩]
      nextNumber := if assignedNumber s = 65535 then 1 else assignedNumber s + 1
      generation := s.ckpt.generation + 1, fence := false, ctrl := .idle }
    filter := if s.ckpt.generation = 65535 then [] else s.filter
    mgmt := { s.mgmt with
      result := some ⟨.take, src, .done, some (assignedNumber s), 0, 0, none⟩
      latches := s.mgmt.latches ||| 0x001 } } := by
  rw [soloPush, pushCkpt_fields]
  rfl

theorem enterAgreeing_fields {s : State} {a : Agreement} (h : s.casc.agreement = some a) (g : Goal) (src : Source) :
    enterAgreeing g src s = { s with
      ckpt := { s.ckpt with ctrl := .agreeing g src }
      casc := { s.casc with agreement := some { a with settled := true } } } := by
  rw [enterAgreeing, modAgreement_some (a := a) (by exact h)]
  rfl

/-- An operation that settles while READY is awaited from below sends nothing (R163, R167). -/
theorem noSendDue_awaited {s : State} {a : Agreement} (h : s.casc.agreement = some a) (below : a.below = .awaited)
    (go : a.go = false) : NoSendDue s := by
  intro b hb
  obtain rfl : a = b := Option.some.inj (h.symm.trans hb)
  exact ⟨fun _ _ => .inr (by simp [below]), fun _ _ => .inr (.inr (by simp [below])), fun sent => by simp [go] at sent⟩

theorem exec_takeSettled {s : State} (h : inReset s = false) :
    exec .takeSettled s = .next (afterSettle s (settleTake s)) :=
  event_taken (f := fun s => afterSettle s (settleTake s)) h

/-- Settles O29: the push of a solo unit, in the step of TAKE or of TAKE_SETTLED, and AGREEING in a chain. -/
theorem takeCompletes : Obligations.TakeCompletes := by
  intro s d src tracker pushed
  refine ⟨fun h solo free idle configured room => ?_, fun h ctrl busy => ⟨fun solo free flags => ?_, ?_⟩⟩
  · refine (execTake_accepted h (checkTake_accepted (by simp [solo]) free idle configured room)).trans ?_
    have settledTake : settleTake (takeBegun .command s) = soloPush .command (takeBegun .command s) := by
      rw [settleTake_settling rfl (by exact tracker), if_pos (by exact solo)]
    rw [startTake_eq, agreeIfLeader_solo (by simp [takeBegun, solo]), settle, settledTake, soloPush_fields]
    rfl
  · rw [exec_takeSettled h, settleTake_settling ctrl tracker, if_pos solo, soloPush_fields, afterSettle_still]
    · simp [pushed, flags]
    case follow => exact cascadeFollow_none free
    case check => exact .inr (.inr (dueSource_noFlags flags))
    case ports => exact portFollow_busy busy
  · intro a chain ha below go
    rw [exec_takeSettled h, settleTake_settling ctrl tracker, if_neg chain, enterAgreeing_fields ha, afterSettle_still]
    case follow => exact cascadeFollow_notDue (noSendDue_awaited rfl below go)
    case check => exact .inr (.inl (longOp_of_ctrl nofun))
    case ports => exact portFollow_busy busy

/-! ## Rollbacks -/

section
variable {s : State} {k : CkptNumber} {src : Source} {r : CkptRecord}

theorem settleRollback_settling (ctrl : s.ckpt.ctrl = .settling (.rollback k) src) (tracker : rollbackSettled s = true) :
    settleRollback s = if targetLive k s = true then
        (if s.casc.role = .solo then startWalk k s else enterAgreeing (.rollback k) src s)
      else refuseBroken k src s := by
  simp [settleRollback, ctrl, tracker]

theorem exec_rollbackSettled (h : inReset s = false) :
    exec .rollbackSettled s = .next (afterSettle s (settleRollback s)) :=
  event_taken (f := fun s => afterSettle s (settleRollback s)) h

theorem refuseBroken_solo (free : s.casc.agreement = none) : refuseBroken k src s = { s with
    ckpt := { s.ckpt with fence := false, ctrl := .idle }
    mgmt := { s.mgmt with
      result := some ⟨.rollback, src, .refused, some k, 0, 0, none⟩
      latches := s.mgmt.latches ||| 0x002 } } := by
  have none : cascadeIdOf s = none := by rw [cascadeIdOf, free]; rfl
  unfold refuseBroken
  simp only [none]
  split
  · rfl
  · rename_i a ha
    exact absurd (free.symm.trans ha) (by simp)

/-- The walk requests the header of head - 1 where a record lies in the range (R75, R76). -/
theorem startWalk_requests (found : findCkpt k s = some r) (range : s.log.head ≠ r.mark) :
    startWalk k s = { s with
      ckpt := { s.ckpt with ctrl := .restoring k }
      restore := { s.restore with
        walk := some
          { target := k, floor := r.mark, position := s.log.head - 1, stage := .header
            header := none, oldData := none, applied := 0, stopped := false
            quarantined := false } }
      down := { s.down with restoreReady := s.down.restoreReady ++
        [⟨.walkHeader, .read, s.log.base + 2 * ((s.log.head - 1).toNat % s.log.capacity)⟩] } } := by
  unfold startWalk
  simp only [found]
  rw [if_neg (by exact range)]
  rfl

/-- At a solo unit the end of a walk is reported as the result (R83, R214). -/
theorem reportWalk_solo {w : Walk} {o : DoneOutcome} (solo : s.casc.role = .solo) (free : s.casc.agreement = none) :
    reportWalk w o s = { s with mgmt := { s.mgmt with
      result := some ⟨.rollback, .command, resultOutcome o, some w.target, w.applied,
        s.restore.unrestored.length + s.restore.overflow, none⟩
      latches := s.mgmt.latches ||| 0x002 } } := by
  have source : rollbackSource s = .command := by simp [rollbackSource, solo]
  have id : cascadeIdOf s = none := by simp [cascadeIdOf, free]
  unfold reportWalk
  simp only [modAgreement_none free]
  rw [if_neg (by simp [solo]), source, id]
  rfl

/-- A solo walk whose range holds no record ends in the step it begins (R75, R82, R83). -/
theorem startWalk_endsAtOnce (found : findCkpt k s = some r) (range : s.log.head = r.mark)
    (unrestored : s.restore.unrestored = []) (overflow : s.restore.overflow = 0) (solo : s.casc.role = .solo)
    (free : s.casc.agreement = none) : startWalk k s = { s with
      ckpt := { s.ckpt with
        stack := s.ckpt.stack.takeWhile (fun x => x.number != k) ++ [{ r with records := 0 }]
        generation := s.ckpt.generation + 1, fence := false, ctrl := .idle }
      filter := if s.ckpt.generation = 65535 then [] else s.filter
      log := { s.log with head := r.mark, allocated := r.mark }
      restore := { s.restore with walk := none }
      mgmt := { s.mgmt with
        result := some ⟨.rollback, .command, .done, some k, 0, 0, none⟩
        latches := s.mgmt.latches ||| 0x002 } } := by
  obtain ⟨w, target, applied, ends⟩ := startWalk_empty found range unrestored overflow
  rw [ends, reportWalk_solo (by exact solo) (by exact free)]
  simp [target, applied, resultOutcome, unrestored, overflow, range]

/-- Settles O33: a BROKEN target, a walk, or a walk that ends at once. -/
theorem rollbackSettles : Obligations.RollbackSettles := by
  intro s k src h ctrl solo free tracker flags still
  refine ⟨fun broken => ?_, fun r found live => ⟨fun range => ?_, fun range unrestored overflow => ?_⟩⟩
  · rw [exec_rollbackSettled h, settleRollback_settling ctrl tracker, if_neg (by simp [broken]), refuseBroken_solo free,
      afterSettle_still]
    case follow => exact cascadeFollow_none free
    case check => exact .inr (.inr (dueSource_noFlags flags))
    case ports => exact portFollow_still still
  · rw [exec_rollbackSettled h, settleRollback_settling ctrl tracker,
      if_pos (by rw [targetLive_of_found found, live]; rfl), if_pos solo, startWalk_requests found range, afterSettle_still]
    case follow => exact cascadeFollow_none free
    case check => exact .inr (.inl (longOp_of_ctrl nofun))
    case ports => exact portFollow_still still
  · rw [exec_rollbackSettled h, settleRollback_settling ctrl tracker,
      if_pos (by rw [targetLive_of_found found, live]; rfl), if_pos solo,
      startWalk_endsAtOnce found range unrestored overflow solo free, afterSettle_still]
    case follow => exact cascadeFollow_none free
    case check => exact .inr (.inr (dueSource_noFlags flags))
    case ports => exact portFollow_still still

end

/-! ## Settles in a chain -/

section
variable {s : State} {a : Agreement} {g : Goal} {src : Source}

theorem exec_leaderGo (h : inReset s = false) : exec .leaderGo s = .next (portFollow
    (if longOp s && !longOp (agreementEnd (leaderGo s)) then triggerCheck (agreementEnd (leaderGo s))
      else agreementEnd (leaderGo s))) :=
  event_taken (f := fun s => portFollow
    (if longOp s && !longOp (agreementEnd (leaderGo s)) then triggerCheck (agreementEnd (leaderGo s))
      else agreementEnd (leaderGo s))) h

theorem exec_readyOkSend (h : inReset s = false) : exec .readyOkSend s = .next (readyOk s) := event_taken (f := readyOk) h

/-- At a leader what follows a settle is its GO and the end of its agreement. -/
theorem cascadeFollow_leader (leader : s.casc.role = .leader) : cascadeFollow s = agreementEnd (leaderGo s) := by
  rw [cascadeFollow, readyOk_leader (by simpa using leader), doneSend_leader (by simpa using leader)]

/-- At a follower before GO what follows is its READY(OK). -/
theorem cascadeFollow_follower (follower : s.casc.role = .follower) (ha : s.casc.agreement = some a)
    (go : a.go = false) : cascadeFollow s = readyOk s := by
  have sent : ∃ b, (readyOk s).casc.agreement = some b ∧ b.go = false := by
    unfold readyOk
    simp only [ha]
    split_ifs
    · exact ⟨{ a with readySent := .ok }, by simp [modAgreement, ha], go⟩
    · exact ⟨a, ha, go⟩
  obtain ⟨b, hb, notSent⟩ := sent
  rw [cascadeFollow, leaderGo_follower (by simp [follower]), agreementEnd_beforeGo hb notSent, doneSend_beforeGo hb notSent]

/-- What the settle of a chained operation leads to: AGREEING, and the send that is due then. -/
theorem agreed_follow (h : inReset s = false) (ctrl : s.ckpt.ctrl = .settling g src)
    (go : a.go = false) (still : PortsStill s) :
    let agreed := { s with
      ckpt := { s.ckpt with ctrl := .agreeing g src }
      casc := { s.casc with agreement := some { a with settled := true } } }
    (a.below = .awaited → afterSettle s agreed = agreed)
      ∧ (s.casc.role = .leader → a.below = .ok → .next (afterSettle s agreed) = exec .leaderGo agreed)
      ∧ (s.casc.role = .follower → a.below = .ok ∨ a.below = .notNeeded → a.readySent = .none →
        .next (afterSettle s agreed) = exec .readyOkSend agreed) := by
  intro agreed
  have busy : longOp agreed = true := longOp_of_ctrl nofun
  have busy' : longOp s = true := longOp_of_ctrl (by simp [ctrl])
  refine ⟨fun below => ?_, fun leader below => ?_, fun follower below unsent => ?_⟩
  · exact afterSettle_still (cascadeFollow_notDue (noSendDue_awaited rfl below go)) (.inr (.inl busy)) (portFollow_still still)
  · rw [exec_leaderGo (by exact h), afterSettle, cascadeFollow_leader (by exact leader), busy, busy']
  · have sent : (readyOk agreed).ckpt = agreed.ckpt := by simp
    have busySent : longOp (readyOk agreed) = true := longOp_of_ctrl (by rw [sent]; nofun)
    rw [exec_readyOkSend (by exact h), afterSettle, cascadeFollow_follower (by exact follower) rfl (by exact go)]
    have ports : portFollow (readyOk agreed) = readyOk agreed := portFollow_still (by simpa [PortsStill] using still)
    simp [busySent, ports]

theorem settle_inChain (h : inReset s = false) (ctrl : s.ckpt.ctrl = .settling g src) (ha : s.casc.agreement = some a)
    (go : a.go = false) (still : PortsStill s) {c : Instr}
    (agrees : exec c s = .next (afterSettle s (enterAgreeing g src s))) :
    let agreed := { s with
      ckpt := { s.ckpt with ctrl := .agreeing g src }
      casc := { s.casc with agreement := some { a with settled := true } } }
    (a.below = .awaited → exec c s = .next agreed)
      ∧ (s.casc.role = .leader → a.below = .ok → exec c s = exec .leaderGo agreed)
      ∧ (s.casc.role = .follower → a.below = .ok ∨ a.below = .notNeeded → a.readySent = .none →
        exec c s = exec .readyOkSend agreed) := by
  obtain ⟨awaited, leader, follower⟩ := agreed_follow h ctrl go still
  rw [enterAgreeing_fields ha] at agrees
  intro agreed
  exact ⟨fun below => agrees.trans (congrArg _ (awaited below)), fun role below => agrees.trans (leader role below),
    fun role below unsent => agrees.trans (follower role below unsent)⟩

/-- The end of a rollback refused for its BROKEN target at a leader: ABANDON goes down (R74, R161). -/
theorem refuseBroken_leader {k : CkptNumber} (leader : s.casc.role = .leader) (ha : s.casc.agreement = some a)
    (room : s.casc.downList.length < 4) : refuseBroken k src s = { s with
      casc := { s.casc with agreement := none, downList := s.casc.downList ++ [.abandon a.id] }
      ckpt := { s.ckpt with fence := false, ctrl := .idle }
      mgmt := { s.mgmt with
        result := some ⟨.rollback, src, .refused, some k, 0, 0, some a.id⟩
        latches := s.mgmt.latches ||| 0x002 } } := by
  have id : cascadeIdOf s = some a.id := by simp [cascadeIdOf, ha]
  unfold refuseBroken
  dsimp only
  split
  · rename_i none
    exact absurd (ha.symm.trans none) (by simp)
  · rename_i b hb
    obtain rfl : a = b := Option.some.inj (ha.symm.trans hb)
    rw [if_pos (by exact leader), produce_down (by exact room), id]
    rfl

/-- At a follower: READY(REFUSE, BROKEN) goes up where no READY has been sent, and the id is remembered
(R74, R167). -/
theorem refuseBroken_follower {k : CkptNumber} (follower : s.casc.role = .follower) (ha : s.casc.agreement = some a)
    (room : s.casc.upList.length < 4) : refuseBroken k src s = { s with
      casc := { s.casc with
        agreement := none, abandoned := some a.id
        upList := if a.readySent = .none then s.casc.upList ++ [.ready a.id (.refuse .broken)] else s.casc.upList }
      ckpt := { s.ckpt with fence := false, ctrl := .idle }
      mgmt := { s.mgmt with
        result := some ⟨.rollback, src, .refused, some k, 0, 0, some a.id⟩
        latches := s.mgmt.latches ||| 0x002 } } := by
  have id : cascadeIdOf s = some a.id := by simp [cascadeIdOf, ha]
  have notLeader : s.casc.role ≠ .leader := by simp [follower]
  unfold refuseBroken
  dsimp only
  split
  · rename_i none
    exact absurd (ha.symm.trans none) (by simp)
  · rename_i b hb
    obtain rfl : a = b := Option.some.inj (ha.symm.trans hb)
    rw [if_neg (by exact notLeader), produce_up (by exact room), id]
    split_ifs <;> rfl

end

/-- Settles O34: AGREEING and its send, or the refusal of a BROKEN target. -/
theorem settlesInChain : Obligations.SettlesInChain := by
  intro s a g src h ctrl chain ha go still agreed settles
  refine ⟨fun goal tracker => ?_, fun k goal tracker => ⟨fun r found live => ?_, fun r found broken => ⟨?_, ?_⟩⟩⟩
  · subst goal
    refine settle_inChain h ctrl ha go still ((exec_takeSettled h).trans ?_)
    rw [settleTake_settling ctrl tracker, if_neg chain]
  · subst goal
    refine settle_inChain h ctrl ha go still ((exec_rollbackSettled h).trans ?_)
    rw [settleRollback_settling ctrl tracker, if_pos (by rw [targetLive_of_found found, live]; rfl), if_neg chain]
  · intro leader room flags
    subst goal
    rw [exec_rollbackSettled h, settleRollback_settling ctrl tracker,
      if_neg (by rw [targetLive_of_found found, broken]; nofun), refuseBroken_leader leader ha room, afterSettle_still]
    case follow => exact cascadeFollow_none rfl
    case check => exact .inr (.inr (dueSource_noFlags flags))
    case ports => exact portFollow_still still
  · intro follower room
    subst goal
    rw [exec_rollbackSettled h, settleRollback_settling ctrl tracker,
      if_neg (by rw [targetLive_of_found found, broken]; nofun), refuseBroken_follower follower ha room, afterSettle_still]
    case follow => exact cascadeFollow_none rfl
    case check => exact .inr (.inr (dueSource_follower follower))
    case ports => exact portFollow_still still

/-! ## RELEASE_FENCE -/

/-- The end of the hold: fence lowered, IDLE (R85). -/
theorem standDown_fields (s : State) : standDown s = { s with ckpt := { s.ckpt with fence := false, ctrl := .idle } } := rfl

/-- A leader that has sent GO and awaits DONE has nothing to send (R164). -/
theorem noSendDue_awaitsDone {s : State} {a : Agreement} (leader : s.casc.role = .leader)
    (ha : s.casc.agreement = some a) (go : a.go = true) (below : a.belowDone = none) : NoSendDue s := by
  intro b hb
  obtain rfl : a = b := Option.some.inj (ha.symm.trans hb)
  exact ⟨fun _ sent => by simp [go] at sent, fun role => by simp [leader] at role,
    fun _ => .inr ⟨below, fun role => by simp [leader] at role⟩⟩

/-- Settles O35: refused outside HELD, else the fence lowered and no send, trigger or port event due. -/
theorem releaseFence : Obligations.ReleaseFence := by
  intro s d h
  refine ⟨fun away => ?_, fun r held busy flags agreement => ?_⟩
  · have notHeld : ¬ isHeld s = true := by
      rw [isHeld_iff]
      exact fun ⟨r, hr⟩ => away r hr
    show execReleaseFence s = _
    exact onFrame_gives (a := refuse stState s) h (if_neg notHeld) rfl
  · have quiet : portFollow (controlFollow s (standDown s)) = standDown s := by
      refine follow_still (settle_elsewhere nofun) (cascadeFollow_notDue ?_) (.inr (.inr (dueSource_noFlags flags)))
        (portFollow_busy busy)
      rcases agreement with none | ⟨a, leader, ha, go, below⟩
      · exact fun a ha => absurd (none.symm.trans ha) (by simp)
      · exact noSendDue_awaitsDone leader ha go below
    show execReleaseFence s = _
    refine onFrame_gives (a := done _) h ((if_pos ((isHeld_iff s).mpr ⟨r, held⟩)).trans ?_) rfl
    rw [quiet, standDown_fields]

end Sys2Proof.Machine
end

section
/-! The wait list, releases and triggers. -/

namespace Sys2Proof.Machine

-- One declaration at a time: elaborated in parallel, many quick ones exceed the memory limit.
set_option Elab.async false

/-! ## The wait list -/

/-- An entry of a number after a change of every entry that keeps the numbers. -/
theorem entryAt_map {s u : State} {f : Entry → Entry} (hu : u.entries = s.entries.map f)
    (hf : ∀ x, (f x).num = x.num) (n : Fin 32) : entryAt n u = (entryAt n s).map f := by
  have same : ((fun e : Entry => e.num == n) ∘ f) = fun e => e.num == n := funext fun e => by simp [hf]
  rw [entryAt, hu, List.find?_map, same, entryAt]

/-- The HOST requests of entries, in the order of their numbers on a list. -/
def hostRequests (l : List (Fin 32)) (s : State) : List DownReq :=
  l.filterMap fun m => (entryAt m s).map fun e => ⟨.host m, e.op, e.line⟩

theorem hostRequests_congr {l : List (Fin 32)} {s u : State}
    (h : ∀ m, (entryAt m u).map (fun e => (e.op, e.line)) = (entryAt m s).map fun e => (e.op, e.line)) :
    hostRequests l u = hostRequests l s := by
  refine List.filterMap_congr fun m _ => ?_
  have := congrArg (Option.map fun p : LineOp × Nat => (⟨.host m, p.1, p.2⟩ : DownReq)) (h m)
  simpa [Option.map_map, Function.comp_def] using this

/-- Entries issued one by one: each goes to ISSUING, and its HOST request joins the ready list (R99). -/
theorem foldl_issue (l : List (Fin 32)) (s : State) : l.foldl (fun s n => issue n s) s = { s with
    entries := s.entries.map fun x => if x.num ∈ l then { x with state := .issuing } else x
    down := { s.down with hostReady := s.down.hostReady ++ hostRequests l s } } := by
  induction l generalizing s with
  | nil => simp [hostRequests]
  | cons n l ih =>
    rw [List.foldl_cons, ih]
    cases hn : entryAt n s with
    | none =>
      have absent : ∀ x ∈ s.entries, x.num ≠ n := by simpa [entryAt] using hn
      have entries : (s.entries.map fun x => if x.num ∈ l then { x with state := .issuing } else x)
          = s.entries.map fun x => if x.num ∈ n :: l then { x with state := .issuing } else x :=
        List.map_congr_left fun x hx => by simp [absent x hx]
      have requests : hostRequests (n :: l) s = hostRequests l s := by simp [hostRequests, hn]
      have same : issue n s = s := by simp [issue, hn]
      rw [same, entries, requests]
    | some e =>
      have requests : hostRequests l { s with
          entries := s.entries.map fun x => if x.num = n then { x with state := .issuing } else x
          down := { s.down with hostReady := s.down.hostReady ++ [⟨.host n, e.op, e.line⟩] } } = hostRequests l s := by
        refine hostRequests_congr fun m => ?_
        rw [entryAt_map (s := s) (f := fun x => if x.num = n then { x with state := .issuing } else x) rfl
          (fun x => by split <;> rfl), Option.map_map]
        refine congrArg (Option.map · _) (funext fun x => ?_)
        by_cases h : x.num = n <;> simp [h]
      rw [issue_entry hn, requests]
      have entries : ((s.entries.map fun x => if x.num = n then { x with state := .issuing } else x).map fun x =>
          if x.num ∈ l then { x with state := .issuing } else x)
          = s.entries.map fun x => if x.num ∈ n :: l then { x with state := .issuing } else x := by
        rw [List.map_map]
        refine List.map_congr_left fun x _ => ?_
        by_cases h : x.num = n <;> by_cases h' : x.num ∈ l <;> simp_all
      simp only [entries, hostRequests, List.filterMap_cons, hn, Option.map_some, List.append_assoc,
        List.singleton_append]

theorem issueWaiting_fields (s : State) : issueWaiting s = { s with
    entries := s.entries.map fun x => if x.num ∈ s.log.waitList then { x with state := .issuing } else x
    down := { s.down with hostReady := s.down.hostReady ++ hostRequests s.log.waitList s }
    log := { s.log with waitList := [], stallClock := 0 } } := by
  rw [issueWaiting, foldl_issue]
  rfl

/-- With nobody waiting, serving the wait list only stops the clock. -/
theorem serveWaitList_nil {s : State} (h : s.log.waitList = []) :
    serveWaitList s = { s with log := { s.log with waitList := [], stallClock := 0 } } := by
  unfold serveWaitList
  split
  · rw [h]
    show { s with log := { s.log with stallClock := if s.log.waitList.isEmpty then 0 else s.log.stallClock } } = _
    rw [h, ← h]
    simp [h]
  · exact issueWaiting_nil h

theorem releaseOldest_eq (n : Nat) (s : State) : releaseOldest n s = serveWaitList (dropOldest n s) := rfl

/-- With no LIVE checkpoint current, the whole wait list issues (R38). -/
theorem serveWaitList_notPreserving {s : State} (h : preserving s = false) : serveWaitList s = issueWaiting s := by
  simp [serveWaitList, h]

/-- While a LIVE checkpoint is current, entries reserve for as long as the log has room, and the clock stops
where none is left waiting (R38, R40). -/
theorem serveWaitList_live {s : State} {c : CkptRecord} (current : currentCkpt s = some c) (live : c.state = .live)
    (distinct : s.log.waitList.Nodup) (waiting : ∀ m ∈ s.log.waitList, ∃ e, entryAt m s = some e)
    (bound : s.log.capacity ≤ 2 ^ 26) (room : occupancy s.log ≤ s.log.capacity) :
    serveWaitList s =
      let served := s.log.waitList.take (s.log.capacity - occupancy s.log)
      let left := s.log.waitList.drop (s.log.capacity - occupancy s.log)
      { s with
        log := { s.log with
          allocated := s.log.allocated + BitVec.ofNat 32 served.length
          waitList := left, stallClock := if left = [] then 0 else s.log.stallClock }
        entries := s.entries.map fun x =>
          if x.num ∈ served then
            { x with
              state := .capturing
              ctx := some (freshCtx (s.log.allocated + BitVec.ofNat 32 (served.idxOf x.num)) c.number) }
          else x
        down := { s.down with preserveReady := s.down.preserveReady ++ served.filterMap (fun m =>
          (entryAt m s).map fun e => ⟨.capture m, .read, e.line⟩) }
        mgmt := { s.mgmt with
          latches := if occupancy s.log < s.log.watermark ∧ s.log.watermark ≤ occupancy s.log + served.length
            then s.mgmt.latches ||| 0x008 else s.mgmt.latches } } := by
  have active : preserving s = true := by simp [preserving, current, live]
  rw [serveWaitList, if_pos active, reserveWaiting_serves _ s rfl distinct waiting current bound room]
  simp only [stopClockIfEmpty, State.onLog, List.isEmpty_iff]

/-! ## RELEASE -/

section
variable {s : State} {d : Decoder} {n : Byte}

theorem releasable_iff : releasable s = true ↔ s.ckpt.ctrl = .idle
    ∨ ∃ src, s.ckpt.ctrl = .settling .take src ∨ s.ckpt.ctrl = .agreeing .take src := by
  unfold releasable
  split <;> simp_all

theorem execRelease_accepted (h : Listening s d) (allowed : releasable s = true)
    (range : ¬ (n = 0 ∨ s.ckpt.stack.length < n.toNat)) :
    execRelease n s = .next (answered d 0x00 [] (portFollow (releaseOldest n.toNat s))) := by
  have kept : (portFollow (releaseOldest n.toNat s)).mgmt.warmPending = s.mgmt.warmPending := by simp
  refine onFrame_gives (a := done (portFollow (releaseOldest n.toNat s))) h ?_ kept
  rw [if_neg (by simp [allowed]), if_neg range]

end

/-- Settles O30: the checks, and the wait list empty, issued, or served while there is room. -/
theorem releaseCommand : Obligations.ReleaseCommand := by
  intro s d n h allowed tail t
  refine ⟨fun refused => ?_, fun ok range => ?_, fun ok positive enough busy => ?_⟩
  · show execRelease n s = _
    refine onFrame_gives (a := refuse stState s) h (if_pos ?_) rfl
    rw [← Bool.not_eq_true, releasable_iff]
    exact refused
  · show execRelease n s = _
    refine onFrame_gives (a := refuse stRange s) h ?_ rfl
    rw [if_neg (by simp [releasable_iff.mpr ok]), if_pos range]
  have accepted : exec (.release n) s = .next (answered d 0x00 [] (portFollow (serveWaitList (dropOldest n.toNat s)))) :=
    execRelease_accepted h (releasable_iff.mpr ok) (by rw [not_or]; exact ⟨positive, not_lt.mpr enough⟩)
  have ports : portFollow (serveWaitList (dropOldest n.toNat s)) = serveWaitList (dropOldest n.toNat s) :=
    portFollow_busy (by simpa [ChannelsBusy, dropOldest] using busy)
  rw [ports] at accepted
  refine ⟨fun none => ?_, fun all => ?_, fun c current live distinct waiting bound => ?_⟩
  · rw [accepted, serveWaitList_nil (by exact none)]
    rfl
  · have empty : preserving (dropOldest n.toNat s) = false := by
      simp [preserving, currentCkpt, dropOldest, all]
    rw [accepted, serveWaitList_notPreserving empty, issueWaiting_fields]
    rfl
  · intro occupied served left room
    rw [accepted, serveWaitList_live (s := dropOldest n.toNat s) current live distinct waiting bound room]
    rfl

/-! ## The stall limit -/

/-- A break with a LIVE record (R16, R39). -/
theorem breakAll_fields {s : State} (live : ∃ r ∈ s.ckpt.stack, r.state = .live) : breakAll s = { s with
    ckpt := { s.ckpt with stack := s.ckpt.stack.map fun r => { r with state := .broken } }
    entries := s.entries.map fun x => if x.num ∈ s.log.waitList then { x with state := .issuing } else x
    down := { s.down with hostReady := s.down.hostReady ++ hostRequests s.log.waitList s }
    log := { s.log with waitList := [], stallClock := 0 }
    mgmt := { s.mgmt with latches := s.mgmt.latches ||| 0x004 } } := by
  rw [breakAll, if_pos (by simpa using live), issueWaiting_fields]
  rfl

/-- Settles O38: nothing without a waiting entry and a limit, else the time counted and the break. -/
theorem stallLimitExpiry : Obligations.StallLimitExpiry := by
  intro s h
  simp only [exec, execStallLimitExpiry, event_taken h]
  refine ⟨fun idle => ?_, fun waiting limit live busy => ?_⟩
  · rw [if_pos (by simpa using idle)]
  · rw [if_neg (by simpa using ⟨waiting, limit⟩), breakAll_fields (by exact live), grantIfDue_busy (by exact busy)]
    rfl

/-! ## The trigger check -/

section
variable {s : State} {src : Source}

theorem exec_triggerTakeStart (h : inReset s = false) : exec .triggerTakeStart s = .next (portFollow (triggerCheck s)) :=
  event_taken (f := fun s => portFollow (triggerCheck s)) h

theorem longOp_atRest (h : AtRest s) : longOp s = false := by simp [longOp, h.1, h.2]

/-- The settle of a take leaves no settle of a rollback. -/
theorem settle_ofTake (ctrl : s.ckpt.ctrl = .settling .take src) : settle s = settleTake s := by
  have elsewhere : settleRollback (settleTake s) = settleTake s := by
    have after : (settleTake s).ckpt.ctrl = .settling .take src ∨ (settleTake s).ckpt.ctrl = .idle
        ∨ (settleTake s).ckpt.ctrl = .agreeing .take src := by
      simp only [settleTake, ctrl]
      split_ifs
      · exact .inr (.inl (by rw [soloPush_fields]))
      · exact .inr (.inr rfl)
      · exact .inl ctrl
    unfold settleRollback
    rcases after with h | h | h <;> rw [h]
  rw [settle, elsewhere]

theorem missTrigger_fields (src : Source) (s : State) : missTrigger src s = { s with
    ckpt := { s.ckpt with lineFlag := false, timerFlag := false, cascadeFlag := false }
    mgmt := { s.mgmt with
      result := some ⟨.take, src, .missed, none, 0, 0, none⟩
      latches := s.mgmt.latches ||| 0x040 } } := rfl

/-- The trigger check at rest, by the source that is due (R20 to R22). -/
theorem triggerCheck_atRest (rest : longOp s = false) (due : dueSource s = some src) : triggerCheck s =
    if !s.log.configured || (stackFull s && !s.ckpt.rolling) then missTrigger src s
    else settle (startTake src (if stackFull s then releaseOldest 1 s else s)) := by
  simp [triggerCheck, rest, due]

theorem dueSource_none (line : ¬ (s.ckpt.lineFlag = true ∧ s.ckpt.lineEnable = true))
    (timer : ¬ (s.ckpt.timerFlag = true ∧ s.ckpt.autoTake = true))
    (cascade : ¬ (s.ckpt.cascadeFlag = true ∧ s.casc.role = .leader)) : dueSource s = none := by
  simp only [dueSource, servable, List.find?_eq_none, List.mem_cons, List.not_mem_nil, or_false]
  rintro x (rfl | rfl | rfl) <;> simp <;> tauto

theorem dueSource_some (role : s.casc.role ≠ .follower)
    (first : ((s.ckpt.lineFlag = true ∧ s.ckpt.lineEnable = true) ∧ src = .line)
      ∨ (¬ (s.ckpt.lineFlag = true ∧ s.ckpt.lineEnable = true) ∧ (s.ckpt.timerFlag = true ∧ s.ckpt.autoTake = true)
        ∧ src = .timer)
      ∨ (¬ (s.ckpt.lineFlag = true ∧ s.ckpt.lineEnable = true)
        ∧ ¬ (s.ckpt.timerFlag = true ∧ s.ckpt.autoTake = true)
        ∧ (s.ckpt.cascadeFlag = true ∧ s.casc.role = .leader) ∧ src = .cascade)) :
    dueSource s = some src ∧ src ≠ .command := by
  have lineOff (h : ¬ (s.ckpt.lineFlag = true ∧ s.ckpt.lineEnable = true)) : servable .line s = false := by
    simpa [servable, role] using h
  have timerOff (h : ¬ (s.ckpt.timerFlag = true ∧ s.ckpt.autoTake = true)) : servable .timer s = false := by
    simpa [servable, role] using h
  rcases first with ⟨line, rfl⟩ | ⟨line, timer, rfl⟩ | ⟨line, timer, cascade, rfl⟩
  · have on : servable .line s = true := by simp [servable, line, role]
    exact ⟨by simp [dueSource, on], nofun⟩
  · have on : servable .timer s = true := by simp [servable, timer, role]
    exact ⟨by simp [dueSource, lineOff line, on], nofun⟩
  · have on : servable .cascade s = true := by simp [servable, cascade]
    exact ⟨by simp [dueSource, lineOff line, timerOff timer, on], nofun⟩

end

/-- What follows a take's start in the same step is the settle, as TAKE_SETTLED takes it (R7). -/
theorem takeSettled_follows {t : State} {src : Source} (h : inReset t = false) (ctrl : t.ckpt.ctrl = .settling .take src)
    (flags : NoFlags t) (chain : (t.casc.role = .solo ∧ t.casc.agreement = none)
      ∨ (t.casc.role ≠ .solo ∧ ∃ a, t.casc.agreement = some a ∧ a.below = .awaited ∧ a.go = false))
    (tracker : settled t = true) : .next (portFollow (settle t)) = exec .takeSettled t := by
  rw [exec_takeSettled h, settle_ofTake ctrl, settleTake_settling ctrl tracker]
  rcases chain with ⟨solo, free⟩ | ⟨chained, a, ha, below, go⟩
  · rw [if_pos solo, soloPush_fields, afterSettle_ports]
    case follow => exact cascadeFollow_none free
    case check => exact .inr (.inr (dueSource_noFlags flags))
  · rw [if_neg chained, enterAgreeing_fields ha, afterSettle_ports]
    case follow => exact cascadeFollow_notDue (noSendDue_awaited rfl below go)
    case check => exact .inr (.inl (longOp_of_ctrl nofun))

/-- Settles O36: by the source that is due; a start is takeBegun with the agreement of a leader. -/
theorem triggerTake : Obligations.TriggerTake := by
  intro s src h rest busy role line timer cascade cleared merged
  have op := longOp_atRest rest
  refine ⟨fun noLine noTimer noCascade => ?_, fun first => ?_⟩
  · rw [exec_triggerTakeStart h, triggerCheck_idle (.inr (dueSource_none noLine noTimer noCascade)), portFollow_busy busy]
  obtain ⟨due, notCommand⟩ := dueSource_some role first
  refine ⟨fun missed => ?_, fun stack log casc configured room chain => ?_⟩
  · have test : (!s.log.configured || (stackFull s && !s.ckpt.rolling)) = true := by
      simpa [stackFull] using missed
    rw [exec_triggerTakeStart h, triggerCheck_atRest op due, if_pos test, missTrigger_fields, portFollow_busy (by exact busy)]
  intro started
  have test : ¬ (!s.log.configured || (stackFull s && !s.ckpt.rolling)) = true := by
    rcases room with ⟨space, -⟩ | ⟨-, rolling, -⟩
    · simp [configured, stackFull]
      omega
    · simp [configured, rolling]
  have released : startTake src (if stackFull s then releaseOldest 1 s else s)
      = agreeIfLeader .take src { started with casc := s.casc } := by
    rw [startTake_eq]
    congr 1
    rcases room with ⟨space, rfl, rfl⟩ | ⟨full, -, waiting, rfl, rfl⟩
    · rw [if_neg (by simp [stackFull]; omega)]
      simp only [takeBegun, if_neg notCommand]
      rfl
    · rw [if_pos (by simpa [stackFull] using full), releaseOldest_eq, serveWaitList_nil (by exact waiting)]
      simp only [takeBegun, if_neg notCommand, started, waiting]
      rfl
  have begun : agreeIfLeader .take src { started with casc := s.casc } = started := by
    rcases chain with ⟨solo, rfl⟩ | ⟨leader, space, rfl⟩
    · exact agreeIfLeader_solo (by simp [solo]) _ _
    · exact agreeIfLeader_leader (by exact leader) (by exact space) _ _
  have taken : exec .triggerTakeStart s = .next (portFollow (settle started)) := by
    rw [exec_triggerTakeStart h, triggerCheck_atRest op due, if_neg test, released, begun]
  refine ⟨fun unsettled => ?_, fun tracker => ?_⟩
  · rw [taken, settle_unsettled (by exact unsettled), portFollow_busy (by exact busy)]
  · rw [taken]
    refine takeSettled_follows (by exact h) rfl ⟨rfl, rfl, rfl⟩ ?_ (by exact tracker)
    rcases chain with ⟨solo, rfl⟩ | ⟨leader, space, rfl⟩
    · exact .inl ⟨solo, rest.2⟩
    · exact .inr ⟨by simp [started, leader], _, rfl, rfl, rfl⟩

end Sys2Proof.Machine
end

section
/-! Trigger latches, and the acceptance of a rollback. -/

namespace Sys2Proof.Machine

-- One declaration at a time: elaborated in parallel, many quick ones exceed the memory limit.
set_option Elab.async false

/-! ## Trigger latches -/

/-- The count and the alert of a flag latched (R21, R211). -/
def flagNoted (already missed : Bool) (m : Mgmt) : Mgmt := { m with
  counters := { m.counters with
    triggersMerged := if already then satAdd m.counters.triggersMerged 1 else m.counters.triggersMerged }
  latches := if missed then m.latches ||| 0x040 else m.latches }

section
variable {s : State}

theorem countMerged_noted (already : Bool) (f : Controller → Controller) (s : State) :
    (if already then countMerged 1 s else s).onCkpt f = { s with ckpt := f s.ckpt, mgmt := flagNoted already false s.mgmt } := by
  cases already <;> rfl

theorem latchIf_noted (already missed : Bool) (c : Controller) (s : State) :
    latchIf missed .triggerMissed { s with ckpt := c, mgmt := flagNoted already false s.mgmt }
      = { s with ckpt := c, mgmt := flagNoted already missed s.mgmt } := by
  cases missed <;> rfl

/-- A LINE flag latched while line triggering is enabled (R17). -/
theorem latchFlag_line (enabled : s.ckpt.lineEnable = true) (role : s.casc.role ≠ .follower) : latchFlag .line s = { s with
    ckpt := { s.ckpt with lineFlag := true }, mgmt := flagNoted s.ckpt.lineFlag (isHeld s) s.mgmt } := by
  rw [latchFlag]
  simp only [countMerged_noted]
  rw [latchIf_noted]
  simp [servable, enabled, bne_iff_ne.mpr role, isHeld]

/-- A TIMER flag latched (R18). -/
theorem latchFlag_timer (role : s.casc.role ≠ .follower) : latchFlag .timer s = { s with
    ckpt := { s.ckpt with timerFlag := true }
    mgmt := flagNoted s.ckpt.timerFlag (isHeld s && s.ckpt.autoTake) s.mgmt } := by
  rw [latchFlag]
  simp only [countMerged_noted]
  rw [latchIf_noted]
  simp [servable, bne_iff_ne.mpr role, isHeld]

/-- A CASCADE flag latched at a leader (R19). -/
theorem latchFlag_cascade (leader : s.casc.role = .leader) : latchFlag .cascade s = { s with
    ckpt := { s.ckpt with cascadeFlag := true }, mgmt := flagNoted s.ckpt.cascadeFlag (isHeld s) s.mgmt } := by
  rw [latchFlag]
  simp only [countMerged_noted]
  rw [latchIf_noted]
  simp [servable, leader, isHeld]

/-- The trigger check makes nothing of a busy unit, and no port event follows while both channels are
occupied (R20). -/
theorem triggerCheck_busy (op : longOp s = true) (busy : ChannelsBusy s) : portFollow (triggerCheck s) = s := by
  rw [triggerCheck_idle (.inl op), portFollow_busy busy]

/-- ASK merges into a waiting one, joins the UP list, or is lost (R158, R173, log 10). -/
theorem produceAsk_up (src : AskSource) (s : State) :
    let waiting := Message.ask .line ∈ s.casc.upList ∨ Message.ask .timer ∈ s.casc.upList
    (waiting → produceAsk src .up s = { s with mgmt := { s.mgmt with counters := { s.mgmt.counters with
      triggersMerged := satAdd s.mgmt.counters.triggersMerged 1 } } })
    ∧ (¬ waiting → s.casc.upList.length < 4 →
      produceAsk src .up s = { s with casc := { s.casc with upList := s.casc.upList ++ [.ask src] } })
    ∧ (¬ waiting → 4 ≤ s.casc.upList.length →
      produceAsk src .up s = { s with mgmt := { s.mgmt with latches := s.mgmt.latches ||| 0x200 } }) := by
  intro waiting
  have any : (sendList .up s.casc).any isAsk = true ↔ waiting := by
    simp only [List.any_eq_true, sendList]
    constructor
    · rintro ⟨m, hm, ask⟩
      match m with
      | .ask .line => exact .inl hm
      | .ask .timer => exact .inr hm
    · rintro (h | h)
      · exact ⟨_, h, rfl⟩
      · exact ⟨_, h, rfl⟩
  rw [← any]
  refine ⟨fun h => ?_, fun h room => ?_, fun h full => ?_⟩
  · rw [produceAsk, if_pos h]
    rfl
  · rw [produceAsk, if_neg h, if_pos (by exact room)]
    rfl
  · rw [produceAsk, if_neg h, if_neg (by simpa [sendList, Config.sendCap] using full)]
    rfl

theorem exec_ckptReqRise (h : inReset s = false) : exec .ckptReqRise s = .next (
    if s.ckpt.lineEnable then
      if s.casc.role = .follower then produceAsk .line .up { s with ckpt := { s.ckpt with ckptLevel := true } }
      else portFollow (triggerCheck (latchFlag .line { s with ckpt := { s.ckpt with ckptLevel := true } }))
    else { s with ckpt := { s.ckpt with ckptLevel := true } }) := by
  simp only [exec, execCkptReqRise, event_taken h, State.onCkpt]
  rfl

theorem exec_intervalExpiry (h : inReset s = false) : exec .intervalExpiry s = .next (
    if s.ckpt.interval = 0 then s
    else if s.casc.role = .follower then
      if s.ckpt.autoTake then produceAsk .timer .up { s with
        ckpt := { s.ckpt with intervalCount := s.ckpt.interval, intervalMicros := 0 } }
      else { s with ckpt := { s.ckpt with intervalCount := s.ckpt.interval, intervalMicros := 0 } }
    else portFollow (triggerCheck (latchFlag .timer { s with
      ckpt := { s.ckpt with intervalCount := s.ckpt.interval, intervalMicros := 0 } }))) := by
  simp only [exec, execIntervalExpiry, event_taken h, State.onCkpt]
  rfl

end

/-- Settles O37: the latch and the trigger check, or a follower's ASK. -/
theorem triggerLatches : Obligations.TriggerLatches := by
  intro s h
  refine ⟨fun stopped => ?_, fun role => ?_, fun follower => ?_⟩
  · rw [exec_intervalExpiry h, if_pos stopped]
  · intro busy m line timer
    have checked (u : State) (ctrl : u.ckpt.ctrl = s.ckpt.ctrl) (down : u.down = s.down) (up : u.up = s.up) :
        busy → portFollow (triggerCheck u) = u := fun ⟨op, channels⟩ =>
      triggerCheck_busy (longOp_of_ctrl (by rw [ctrl]; exact op)) (by rw [ChannelsBusy, down, up]; exact channels)
    have lineLatched (enabled : s.ckpt.lineEnable = true) :
        exec .ckptReqRise s = .next (portFollow (triggerCheck line)) := by
      rw [exec_ckptReqRise h, if_pos enabled, if_neg role, latchFlag_line (by exact enabled) (by exact role)]
      rfl
    have timerLatched (running : s.ckpt.interval ≠ 0) :
        exec .intervalExpiry s = .next (portFollow (triggerCheck timer)) := by
      rw [exec_intervalExpiry h, if_neg running, if_neg role, latchFlag_timer (by exact role)]
      rfl
    refine ⟨fun disabled => ?_, fun enabled => ⟨?_, fun b => ?_⟩, fun running => ⟨?_, fun b => ?_⟩⟩
    · rw [exec_ckptReqRise h, if_neg (by simp [disabled])]
    · rw [lineLatched enabled, exec_triggerTakeStart (by exact h)]
    · rw [lineLatched enabled, checked line rfl rfl rfl b]
    · rw [timerLatched running, exec_triggerTakeStart (by exact h)]
    · rw [timerLatched running, checked timer rfl rfl rfl b]
  · intro waiting asked risen reloaded
    refine ⟨fun disabled => ?_, fun enabled => ⟨_, ?_, produceAsk_up .line risen⟩, fun running off => ?_,
      fun running on => ⟨_, ?_, produceAsk_up .timer reloaded⟩⟩
    · rw [exec_ckptReqRise h, if_neg (by simp [disabled])]
    · rw [exec_ckptReqRise h, if_pos enabled, if_pos follower]
    · rw [exec_intervalExpiry h, if_neg running, if_pos follower, if_neg (by simp [off])]
    · rw [exec_intervalExpiry h, if_neg running, if_pos follower, if_pos on]

/-! ## The acceptance of a rollback -/

section
variable {s : State} {k : CkptNumber} {src : Source} {r : CkptRecord}

/-- A rollback begun with nobody waiting (R70). -/
def rollbackBegun (k : CkptNumber) (src : Source) (s : State) : State := { s with
  ckpt := { s.ckpt with fence := true, ctrl := .settling (.rollback k) src }
  restore := { s.restore with unrestored := [], overflow := 0 }
  log := { s.log with stallClock := 0 } }

theorem beginRollback_noneWaiting (none : s.log.waitList = []) : beginRollback k src s = rollbackBegun k src s := by
  have kept : s.log.waitList = (rollbackBegun k src s).log.waitList := rfl
  show s.log.waitList.foldl _ _ = _
  rw [none, List.foldl_nil]
  simp [rollbackBegun, clearUnrestored, raiseFence, setCtrl, State.onCkpt, State.onRestore, State.onLog, none]

/-- A settle of a rollback is the whole settle. -/
theorem settle_ofRollback (ctrl : s.ckpt.ctrl = .settling (.rollback k) src) : settle s = settleRollback s := by
  rw [settle, show settleTake s = s by simp [settleTake, ctrl]]

theorem follow_settlingRollback {b t : State} (ctrl : t.ckpt.ctrl = .settling (.rollback k) src) :
    portFollow (controlFollow b t) = afterSettle b (settleRollback t) := by
  rw [controlFollow, afterSettle, settle_ofRollback ctrl]

theorem rollbackAccepts {d : Decoder} (h : Listening s d) (role : s.casc.role ≠ .follower)
    (free : s.casc.agreement = none) (ctrl : s.ckpt.ctrl = .idle ∨ ∃ h, s.ckpt.ctrl = .held h) (nonzero : k ≠ 0)
    (found : findCkpt k s = some r) (live : r.state = .live) :
    exec (.rollback k) s = .next (answered d 0x01 []
      (portFollow (controlFollow (acceptRollback k s) (acceptRollback k s)))) := by
  refine execRollback_accepted h ?_
  rw [checkRollback_startable role free ctrl, if_neg nonzero, if_neg (by simp [found]),
    if_neg (by rw [targetLive_of_found found, live]; nofun)]

end

/-- Settles O31: the rollback begun, and the settle that is part of its acceptance. -/
theorem rollbackAccepted : Obligations.RollbackAccepted := by
  intro s d k r h free ctrl nonzero found live noneWaiting busy t started
  have solo (role : s.casc.role = .solo) : acceptRollback k s = rollbackBegun k .command s := by
    rw [acceptRollback, beginRollback_noneWaiting noneWaiting, agreeIfLeader_solo (by simp [rollbackBegun, role])]
  have leader (role : s.casc.role = .leader) (room : s.casc.downList.length < 4) :
      acceptRollback k s = { rollbackBegun k .command s with casc := started false } := by
    rw [acceptRollback, beginRollback_noneWaiting noneWaiting, agreeIfLeader_leader (by exact role) (by exact room)]
    rfl
  have target : targetLive k (rollbackBegun k .command s) = true := by
    rw [targetLive_of_found (by exact found), live]
    rfl
  refine ⟨fun unsettled => ⟨fun role => ?_, fun role room => ?_⟩,
    fun tracker => ⟨fun role => ⟨fun range => ?_, fun range flags => ?_⟩,
    fun role room => ?_⟩⟩
  · rw [rollbackAccepts h (by simp [role]) free ctrl nonzero found live, solo role, follow_still]
    · rfl
    case settles => exact settle_none ⟨nofun, fun _ _ _ => unsettled⟩
    case follow => exact cascadeFollow_none free
    case check => exact .inr (.inl (longOp_of_ctrl nofun))
    case ports => exact portFollow_busy busy
  · rw [rollbackAccepts h (by simp [role]) free ctrl nonzero found live, leader role room, follow_still]
    · rfl
    case settles => exact settle_none ⟨nofun, fun _ _ _ => unsettled⟩
    case follow => exact cascadeFollow_unsettled rfl rfl rfl
    case check => exact .inr (.inl (longOp_of_ctrl nofun))
    case ports => exact portFollow_busy busy
  · rw [rollbackAccepts h (by simp [role]) free ctrl nonzero found live, solo role, follow_settlingRollback rfl,
      settleRollback_settling rfl (by exact tracker), if_pos target, if_pos (by exact role),
      startWalk_requests (by exact found) (by exact range), afterSettle_still]
    · rfl
    case follow => exact cascadeFollow_none free
    case check => exact .inr (.inl (longOp_of_ctrl nofun))
    case ports => exact portFollow_busy busy
  · rw [rollbackAccepts h (by simp [role]) free ctrl nonzero found live, solo role, follow_settlingRollback rfl,
      settleRollback_settling rfl (by exact tracker), if_pos target, if_pos (by exact role),
      startWalk_endsAtOnce (by exact found) (by exact range) rfl rfl (by exact role) (by exact free), afterSettle_still]
    · rfl
    case follow => exact cascadeFollow_none free
    case check => exact .inr (.inr (dueSource_noFlags flags))
    case ports => exact portFollow_busy busy
  · rw [rollbackAccepts h (by simp [role]) free ctrl nonzero found live, leader role room, follow_settlingRollback rfl,
      settleRollback_settling rfl (by exact tracker), if_pos (by exact target), if_neg (by simp [started, role]),
      enterAgreeing_fields rfl, afterSettle_still]
    · rfl
    case follow => exact cascadeFollow_notDue (noSendDue_awaited rfl rfl rfl)
    case check => exact .inr (.inl (longOp_of_ctrl nofun))
    case ports => exact portFollow_busy busy

end Sys2Proof.Machine
end

section
/-! ROLLBACK refuses every waiting write: what the refusals and the rest of the step keep. -/

namespace Sys2Proof.Machine

-- One declaration at a time: elaborated in parallel, many quick ones exceed the memory limit.
set_option Elab.async false

/-! ## Refusals of the wait list -/

/-- A rollback settles with nobody waiting: the situation in which the wait list is refused (R66, R70). -/
structure Fencing (s : State) : Prop where
  distinct : (s.entries.map Entry.num).Nodup
  settling : rollbackSettling s = true
  noneWaiting : s.log.waitList = []
  clock : s.log.stallClock = 0

/-- The entry of a number is DONE with FENCED. -/
def Refused (m : Fin 32) (s : State) : Prop := ∃ e, entryAt m s = some e ∧ e.state = .done ∧ e.status = some .fenced

/-- A change in that situation that gives up no refusal. -/
structure Refuses (s t : State) : Prop where
  numbers : t.entries.map Entry.num = s.entries.map Entry.num
  ctrl : t.ckpt.ctrl = s.ckpt.ctrl
  waitList : t.log.waitList = s.log.waitList
  clock : t.log.stallClock = s.log.stallClock
  refused : ∀ m, Refused m s → Refused m t

namespace Refuses
variable {s t u : State}

theorem refl : Refuses s s := ⟨rfl, rfl, rfl, rfl, fun _ h => h⟩

theorem trans (h : Refuses s t) (h' : Refuses t u) : Refuses s u :=
  ⟨h'.numbers.trans h.numbers, h'.ctrl.trans h.ctrl, h'.waitList.trans h.waitList, h'.clock.trans h.clock,
    fun m r => h'.refused m (h.refused m r)⟩

theorem fencing (h : Refuses s t) (f : Fencing s) : Fencing t :=
  ⟨h.numbers ▸ f.distinct, by rw [rollbackSettling, h.ctrl]; exact f.settling, h.waitList.trans f.noneWaiting,
    h.clock.trans f.clock⟩

/-- A change of one entry that was not refused, or is refused by it. -/
theorem of_entry {n : Fin 32} {e : Entry} {f : Entry → Entry} (he : entryAt n s = some e) (hf : ∀ x, (f x).num = x.num)
    (open_ : e.state ≠ .done ∨ (f e).state = .done ∧ (f e).status = some .fenced)
    (entries : t.entries = s.entries.map fun x => if x.num = n then f x else x) (ctrl : t.ckpt.ctrl = s.ckpt.ctrl)
    (waitList : t.log.waitList = s.log.waitList) (clock : t.log.stallClock = s.log.stallClock) : Refuses s t := by
  have num (x : Entry) : (if x.num = n then f x else x).num = x.num := by split <;> simp [hf]
  refine ⟨by simp [entries, Function.comp_def, num], ctrl, waitList, clock, fun m => ?_⟩
  rintro ⟨x, hx, done, fenced⟩
  refine ⟨if x.num = n then f x else x, by rw [entryAt_map entries num, hx]; rfl, ?_⟩
  by_cases hn : x.num = n
  · obtain rfl : e = x := by
      rw [entryAt_num hx] at hn
      exact Option.some.inj (he.symm.trans (hn ▸ hx))
    rw [if_pos hn]
    exact open_.resolve_left (not_not_intro done)
  · rw [if_neg hn]
    exact ⟨done, fenced⟩

theorem countProtectedWrite : Refuses s (countProtectedWrite s) := ⟨rfl, rfl, rfl, rfl, fun _ h => h⟩

theorem countFilterHit : Refuses s (countFilterHit s) := ⟨rfl, rfl, rfl, rfl, fun _ h => h⟩

theorem issue {e : Entry} (he : entryAt e.num s = some e) (active : e.state ≠ .done) : Refuses s (issue e.num s) := by
  rw [issue_entry he]
  exact of_entry (f := fun x => { x with state := .issuing }) he (fun _ => rfl) (.inl active) rfl rfl rfl rfl

theorem setDone {e : Entry} (st : UpStatus) (he : entryAt e.num s = some e) (active : e.state ≠ .done ∨ st = .fenced) :
    Refuses s (setDone e.num st s) :=
  of_entry (f := fun x => { x with state := .done, status := some st }) he (fun _ => rfl)
    (active.imp_right fun h => ⟨rfl, by rw [h]⟩) rfl rfl rfl rfl

theorem reserve {e : Entry} (he : entryAt e.num s = some e) (active : e.state ≠ .done) : Refuses s (reserve e.num s) := by
  cases hc : currentCkpt s with
  | none => simpa [Machine.reserve, he, hc] using refl
  | some c =>
    refine of_entry (f := fun x => { x with state := .capturing, ctx := some (freshCtx s.log.allocated c.number) }) he
      (fun _ => rfl) (.inl active) ?_ (by simp) (by simp) (by simp)
    simp [Machine.reserve, he, hc, modEntry]

/-- The preservation step while a rollback settles leaves the wait list alone: a full log refuses (R66). -/
theorem preservationStep {e : Entry} (f : Fencing s) (he : entryAt e.num s = some e) (active : e.state ≠ .done) :
    Refuses s (preservationStep e s) := by
  refine countProtectedWrite.trans ?_
  have settling : rollbackSettling (Machine.countProtectedWrite s) = true := f.settling
  have he' : entryAt e.num (Machine.countProtectedWrite s) = some e := he
  unfold Machine.preservationStep
  dsimp only
  split_ifs
  · exact issue he' active
  · exact countFilterHit.trans (issue he' active)
  · exact reserve he' active
  · exact setDone _ he' (.inl active)

theorem eligible {e : Entry} (f : Fencing s) (he : entryAt e.num s = some e) (active : e.state ≠ .done) :
    Refuses s (eligible e s) := by
  unfold Machine.eligible
  split
  · exact issue he active
  · split_ifs
    · exact setDone _ he (.inl active)
    · split
      · exact issue he active
      · exact preservationStep f he active

theorem runChain (line k : Nat) (f : Fencing s) : Refuses s (runChain line k s) := by
  induction k generalizing s with
  | zero => exact refl
  | succ k ih =>
    cases h : nextEligible line s with
    | none => rw [runChain_stop h]; exact refl
    | some e =>
      rw [show Machine.runChain line (k + 1) s = Machine.runChain line k (Machine.eligible e s) by simp [Machine.runChain, h]]
      obtain ⟨mem, blocked⟩ : e ∈ s.entries ∧ e.state = .blocked := by
        unfold nextEligible at h
        split at h
        · rename_i x hx
          have mem := List.mem_of_find?_eq_some hx
          split_ifs at h with hb
          cases h
          exact ⟨(List.mem_filter.mp mem).1, hb⟩
        · cases h
      have next : Refuses s (Machine.eligible e s) :=
        eligible f (find_entry f.distinct mem) (by simp [blocked])
      exact next.trans (ih (next.fencing f))

theorem finishEntry_found {e : Entry} {st : UpStatus} (he : entryAt e.num s = some e) :
    Machine.finishEntry e.num st s = Machine.runChain e.line 32 (Machine.setDone e.num st s) := by
  simp only [Machine.finishEntry, he]
  rfl

theorem finishEntry (n : Fin 32) (f : Fencing s) : Refuses s (finishEntry n .fenced s) := by
  cases he : entryAt n s with
  | none => simpa [Machine.finishEntry, he] using refl
  | some e =>
    have num := entryAt_num he
    subst num
    have refused : Refuses s (Machine.setDone e.num .fenced s) := setDone .fenced he (.inr rfl)
    rw [finishEntry_found he]
    exact refused.trans (runChain _ _ (refused.fencing f))

/-- An entry that the unit finishes with FENCED is refused. -/
theorem refused_finishEntry {n : Fin 32} {e : Entry} (f : Fencing s) (he : entryAt n s = some e) :
    Refused n (Machine.finishEntry n .fenced s) := by
  have num := entryAt_num he
  subst num
  have refused : Refuses s (Machine.setDone e.num .fenced s) := setDone .fenced he (.inr rfl)
  have now : Refused e.num (Machine.setDone e.num .fenced s) :=
    ⟨_, entryAt_changed (f := fun x => { x with state := .done, status := some .fenced }) he rfl fun _ => rfl, rfl, rfl⟩
  rw [finishEntry_found he]
  exact (runChain _ _ (refused.fencing f)).refused _ now

end Refuses

theorem entryAt_isSome_numbers {s t : State} (h : t.entries.map Entry.num = s.entries.map Entry.num) (n : Fin 32) :
    (entryAt n t).isSome = (entryAt n s).isSome := by
  have any (u : State) : (entryAt n u).isSome = (u.entries.map Entry.num).any (· == n) := by
    rw [entryAt, List.isSome_find?, List.any_map]
    rfl
  rw [any, any, h]

/-- Every number of a list refused in its order. -/
theorem foldl_finishEntry (l : List (Fin 32)) {s : State} (f : Fencing s) :
    Refuses s (l.foldl (fun s n => finishEntry n .fenced s) s)
      ∧ ∀ m ∈ l, (entryAt m s).isSome = true → Refused m (l.foldl (fun s n => finishEntry n .fenced s) s) := by
  induction l generalizing s with
  | nil => exact ⟨.refl, nofun⟩
  | cons n l ih =>
    have first := Refuses.finishEntry n f
    obtain ⟨rest, all⟩ := ih (first.fencing f)
    refine ⟨first.trans rest, fun m hm present => ?_⟩
    rcases List.mem_cons.mp hm with rfl | hm
    · obtain ⟨e, he⟩ := Option.isSome_iff_exists.mp present
      exact rest.refused _ (Refuses.refused_finishEntry f he)
    · exact all m hm ((entryAt_isSome_numbers first.numbers m).trans present)

/-! ## The rest of the step -/

/-- Entries, wait list and stall clock as they were. -/
structure WaitKept (s t : State) : Prop where
  entries : t.entries = s.entries
  waitList : t.log.waitList = s.log.waitList
  clock : t.log.stallClock = s.log.stallClock

theorem WaitKept.trans {s t u : State} (h : WaitKept s t) (h' : WaitKept t u) : WaitKept s u :=
  ⟨h'.entries.trans h.entries, h'.waitList.trans h.waitList, h'.clock.trans h.clock⟩

/-- With nobody waiting the trigger check leaves entries, wait list and clock alone. -/
theorem triggerCheck_waitKept {s : State} (none : s.log.waitList = []) (clock : s.log.stallClock = 0) :
    WaitKept s (triggerCheck s) := by
  by_cases rest : longOp s = true
  · rw [triggerCheck_idle (.inl rest)]
    exact ⟨rfl, rfl, rfl⟩
  cases due : dueSource s with
  | none =>
    rw [triggerCheck_idle (.inr due)]
    exact ⟨rfl, rfl, rfl⟩
  | some src =>
    have begun (t : State) : WaitKept t (settle (startTake src t)) := by
      have ctrl : (startTake src t).ckpt.ctrl = .settling .take src := by
        rw [startTake_eq]
        simp [takeBegun]
      rw [settle_ofTake ctrl]
      constructor <;> simp
    rw [triggerCheck_atRest (by simpa using rest) due]
    split_ifs
    · exact ⟨rfl, rfl, rfl⟩
    · refine WaitKept.trans ?_ (begun _)
      rw [releaseOldest_eq, serveWaitList_nil (by exact none)]
      exact ⟨rfl, none.symm, clock.symm⟩
    · exact begun s

/-- A grant keeps refusals, wait list and clock. -/
theorem refused_portFollow {s : State} {m : Fin 32} (h : Refused m s) : Refused m (portFollow s) := by
  have told (o : Owner) (t : Fin 32) (u : State) (hu : Refused m u) : Refused m (tellGranted o t u) := by
    obtain ⟨e, he, done, fenced⟩ := hu
    have changed (n : Fin 32) (f : Entry → Entry) (hf : ∀ x, (f x).num = x.num) (hs : ∀ x, (f x).state = x.state)
        (ht : ∀ x, (f x).status = x.status) : Refused m (modEntry n f u) := by
      refine ⟨if e.num = n then f e else e, by rw [entryAt_map (s := u) rfl (fun x => by split <;> simp [hf]), he]; rfl, ?_⟩
      split_ifs
      · exact ⟨(hs e).trans done, (ht e).trans fenced⟩
      · exact ⟨done, fenced⟩
    unfold tellGranted
    split
    · exact changed _ _ (fun _ => rfl) (fun _ => rfl) fun _ => rfl
    · exact changed _ _ (fun _ => rfl) (fun _ => rfl) fun _ => rfl
    · exact changed _ _ (fun _ => rfl) (fun _ => rfl) fun _ => rfl
    · exact changed _ _ (fun _ => rfl) (fun _ => rfl) fun _ => rfl
    all_goals exact ⟨e, he, done, fenced⟩
  have granted : Refused m (grantIfDue s) := by
    unfold grantIfDue
    split
    · split
      · exact h
      · exact told _ _ _ h
    · exact h
  have same : (portFollow s).entries = (grantIfDue s).entries := by simp [portFollow, offerIfDue]; split <;> rfl
  simpa [Refused, entryAt, same] using granted

/-- What follows the acceptance of a solo rollback leaves entries, wait list and clock alone. -/
theorem follow_waitKept {s : State} {k : CkptNumber} (solo : s.casc.role = .solo) (free : s.casc.agreement = none)
    (ctrl : s.ckpt.ctrl = .settling (.rollback k) .command) (unrestored : s.restore.unrestored = [])
    (overflow : s.restore.overflow = 0) (none : s.log.waitList = []) (clock : s.log.stallClock = 0) :
    WaitKept s (controlFollow s s) := by
  have kept : WaitKept s (settleRollback s) ∧ (settleRollback s).casc.agreement = Option.none := by
    by_cases tracker : rollbackSettled s = true
    swap
    · simp [settleRollback, ctrl, tracker, free, WaitKept.mk]
    rw [settleRollback_settling ctrl tracker]
    split_ifs with live
    · cases found : findCkpt k s with
      | none => exact ⟨by simp [startWalk, found, WaitKept.mk], by simp [startWalk, found, free]⟩
      | some r =>
        by_cases range : s.log.head = r.mark
        · rw [startWalk_endsAtOnce found range unrestored overflow solo free]
          exact ⟨⟨rfl, rfl, rfl⟩, free⟩
        · rw [startWalk_requests found range]
          exact ⟨⟨rfl, rfl, rfl⟩, free⟩
    · rw [refuseBroken_solo free]
      exact ⟨⟨rfl, rfl, rfl⟩, free⟩
  obtain ⟨settled, after⟩ := kept
  rw [controlFollow, settle_ofRollback ctrl, cascadeFollow_none after]
  split_ifs
  · exact settled.trans (triggerCheck_waitKept (settled.waitList.trans none) (settled.clock.trans clock))
  · exact settled

/-- Settles O32: every waiting entry is refused in turn, and what follows gives up no refusal. -/
theorem rollbackFencesWaiting : Obligations.RollbackFencesWaiting := by
  intro s d k r h solo free idle nonzero found live distinct
  -- The state in which the refusals begin.
  let begun : State := (setCtrl (.settling (.rollback k) .command) (raiseFence (clearUnrestored s))).onLog fun l =>
    { l with waitList := [], stallClock := 0 }
  have fencing : Fencing begun := ⟨distinct, rfl, rfl, rfl⟩
  obtain ⟨refuses, all⟩ := foldl_finishEntry s.log.waitList fencing
  have accept : acceptRollback k s = s.log.waitList.foldl (fun s n => finishEntry n .fenced s) begun := by
    rw [acceptRollback, agreeIfLeader_solo (by simp [beginRollback, solo])]
    rfl
  have fenced := refuses.fencing fencing
  have frame : (acceptRollback k s).casc = s.casc
      ∧ (acceptRollback k s).restore = { s.restore with unrestored := [], overflow := 0 } := by
    simp [acceptRollback, beginRollback, agreeIfLeader, solo, clearUnrestored]
  rw [← accept] at refuses all fenced
  have kept := follow_waitKept (s := acceptRollback k s) (by rw [frame.1, solo]) (by rw [frame.1, free]) refuses.ctrl
    (by rw [frame.2]) (by rw [frame.2]) fenced.noneWaiting fenced.clock
  refine ⟨_, rollbackAccepts h (by simp [solo]) free (.inl idle) nonzero found live, ⟨rfl, rfl⟩, ?_, ?_, fun m hm e he => ?_⟩
  · simpa [answered] using kept.waitList.trans fenced.noneWaiting
  · simpa [answered] using kept.clock.trans fenced.clock
  · have refused : Refused m (controlFollow (acceptRollback k s) (acceptRollback k s)) := by
      have := all m hm (by rw [show entryAt m begun = some e from he]; rfl)
      simpa [Refused, entryAt, kept.entries] using this
    exact refused_portFollow refused

end Sys2Proof.Machine
end

section
/-! The upstream port and the admission side. -/

namespace Sys2Proof.Machine

-- One declaration at a time: elaborated in parallel, many quick ones exceed the memory limit.
set_option Elab.async false

/-! ## Requests -/

section
variable {s : State} {r : HostRequest}

/-- A refused request joins the refusal queue, its tag live unless PROTOCOL refuses it (R119, R121). -/
theorem takeOffered_refused {st : UpStatus} (offer : s.up.offered = some r) (room : portHasRoom s.up = true)
    (refused : refusalOf r s = some st) : takeOffered s = latchIf (st == .protocol) .lineProtocol { s with up := { s.up with
      offered := none
      nextSeq := s.up.nextSeq + 1
      liveTags := if st = .protocol then s.up.liveTags else s.up.liveTags ++ [r.tag]
      refusals := s.up.refusals ++ [⟨r.tag, opKind r.op, st, s.up.nextSeq⟩] } } := by
  have same : refusalOf r (s.onUp fun u => { u with offered := none }) = some st := refused
  simp only [takeOffered, offer, room, if_true, takeRequest, same]
  rfl

theorem takeOffered_full (full : portHasRoom s.up = false) : takeOffered s = s := by
  unfold takeOffered
  split
  · rfl
  · rw [if_neg (by simp [full])]

theorem inLogArea_iff (line : Nat) (l : Log) :
    inLogArea line l = true ↔ l.configured = true ∧ l.base ≤ line ∧ line < l.base + 2 * l.capacity := by
  simp [inLogArea, and_assoc]

theorem portHasRoom_iff (u : Upstream) : portHasRoom u = true ↔ u.queue.length < 16 ∧ u.refusals.length < 4 := by
  simp [portHasRoom, Config.admissionCap, Config.refusalCap]

theorem classOf_eq {line : Nat} {c : ReqClass} (h : c = .guarded ↔ inWindow line s.cls = true) : classOf line s = c := by
  cases c <;> simp_all [classOf]

theorem exec_requestTaken (h : inReset s = false) (free : s.up.offered = none) : exec (.requestTaken r) s
    = .next (offerIfDue (takeOffered { s with up := { s.up with offered := some r } })) := by
  have offered : s.onUp (fun u => { u with offered := some (u.offered.getD r) })
      = { s with up := { s.up with offered := some r } } := by simp [State.onUp, free]
  show execRequestTaken r s = _
  rw [execRequestTaken, offered]
  exact event_taken (f := fun s => offerIfDue (takeOffered s)) (s := { s with up := { s.up with offered := some r } }) h

end

/-- Settles O39: the request waits without room, or is refused by the first row that applies, or is queued. -/
theorem requestTaken : Obligations.RequestTaken := by
  intro s r h free channel guardArea inside refused
  let offered : State := { s with up := { s.up with offered := some r } }
  have area : guardArea ↔ opKind r.op = .write ∧ inLogArea r.line s.log = true := by
    rw [inLogArea_iff]
  refine ⟨fun full => ?_, fun queue refusals => ⟨fun live => ?_, fun fresh => ⟨fun range => ?_, fun within guarded => ?_,
    fun within outside c class_ => ?_⟩⟩⟩
  · rw [exec_requestTaken h free, takeOffered_full, offerIfDue_busy (by exact channel)]
    rw [← Bool.not_eq_true, portHasRoom_iff]
    rintro ⟨a, b⟩
    rcases full with full | full
    · exact absurd a (by simp [full])
    · exact absurd b (by simp [full])
  all_goals have room : portHasRoom offered.up = true := (portHasRoom_iff _).mpr ⟨queue, refusals⟩
  · have row : refusalOf r offered = some .protocol := by simp [refusalOf, offered, live]
    rw [exec_requestTaken h free, takeOffered_refused rfl room row, offerIfDue_busy (by exact channel)]
    simp [latchIf, latch, refused, offered, State.onMgmt, free]
    rfl
  · have row : refusalOf r offered = some .range := by simp [refusalOf, offered, fresh, range]
    rw [exec_requestTaken h free, takeOffered_refused rfl room row, offerIfDue_busy (by exact channel)]
    simp [latchIf, refused, offered, free]
  · have row : refusalOf r offered = some .guard := by
      simp [refusalOf, offered, fresh, Nat.not_le.mpr within, area.mp guarded]
    rw [exec_requestTaken h free, takeOffered_refused rfl room row, offerIfDue_busy (by exact channel)]
    simp [latchIf, refused, offered, free]
  · have row : refusalOf r offered = none := by
      rw [refusalOf, if_neg (by simpa [offered] using fresh), if_neg (Nat.not_le.mpr within), if_neg (mt area.mpr outside)]
    have cls : classOf r.line offered = c := classOf_eq (class_.trans (inWindow_iff r.line s.cls).symm)
    rw [exec_requestTaken h free, takeOffered_queued rfl room row, offerIfDue_busy (by exact channel), cls]
    simp [offered, free]

/-! ## Fence deferral -/

/-- Settles O42: the head moves into the fence list, or nothing is deferrable. -/
theorem fenceDeferral : Obligations.FenceDeferral := by
  intro s h held
  have run (t : State) (ht : (match deferrable s with
      | none => s
      | some h => offerIfDue (takeOffered (countDeferral (s.onUp fun u =>
          { u with queue := u.queue.drop 1, fenceList := u.fenceList ++ [h] })))) = t) :
      exec .fenceDeferral s = .next t := by
    simp only [exec, execFenceDeferral, event_taken h]
    exact congrArg _ ht
  refine ⟨fun hd rest fence queue room hold free channel => ?_, fun none => ?_⟩
  · have head : deferrable s = some hd := by
      have due : (deferrable s).isSome = true := (deferrable_iff s).mpr ⟨fence, room, hd, by simp [queue], hold⟩
      unfold deferrable at due ⊢
      rw [queue] at due ⊢
      dsimp only at due ⊢
      split_ifs at due ⊢ with ok
      · rfl
      · simp at due
    refine run _ ?_
    rw [head]
    dsimp only
    rw [takeOffered_none (by exact free), offerIfDue_busy (by exact channel)]
    simp [countDeferral, onCounters, State.onUp, State.onMgmt, queue]
  · have nothing : deferrable s = Option.none := by
      rw [← Option.not_isSome_iff_eq_none, deferrable_iff]
      rintro ⟨fence, room, hd, head, hold⟩
      rcases none with low | empty | full | ⟨hd', rest, queue, away⟩
      · simp [low] at fence
      · simp [empty] at head
      · omega
      · simp only [queue, List.head?_cons, Option.mem_def, Option.some.injEq] at head
        exact away (head ▸ hold)
    refine run _ ?_
    rw [nothing]

/-! ## Admission -/

section
variable {s : State} {n : Fin 32} {r : Accepted} {u : Upstream}

/-- A request admitted into entry n, BLOCKED (R93). -/
def enrolled (n : Fin 32) (r : Accepted) (u : Upstream) (s : State) : State :=
  { s with up := u, entries := s.entries ++ [newEntry n r] }

theorem exec_admission (h : inReset s = false) (offers : OffersToTracker s r u) (free : LowestFreeEntry n s)
    (offered : s.up.offered = none) (busy : ChannelsBusy s) :
    exec .admission s = .next (releaseChain r.line (enrolled n r u s)) := by
  obtain ⟨fromList, offer, port⟩ := offered_of_offers offers
  have request : admitRequest n r fromList s = releaseChain r.line (enrolled n r u s) := by
    rw [admitRequest, enrolled, ← port]
    cases fromList <;> rfl
  have upKept : u.offered = s.up.offered ∧ u.channel = s.up.channel := by
    rw [← port]
    cases fromList <;> exact ⟨rfl, rfl⟩
  have taken : exec .admission s = .next (portFollow (takeOffered (admitRequest n r fromList s))) := by
    simp only [exec, execAdmission, event_taken h, offer, freeEntry_lowest free]
  rw [taken, request, takeOffered_none, portFollow_busy]
  · simpa [ChannelsBusy, enrolled, upKept] using busy
  · simpa [enrolled, upKept] using offered

/-- With every older entry of its line DONE the new entry alone takes its eligibility action (R95, R98). -/
theorem admission_eligible (h : inReset s = false) (offers : OffersToTracker s r u) (free : LowestFreeEntry n s)
    (offered : s.up.offered = none) (busy : ChannelsBusy s) (older : ∀ e ∈ s.entries, e.line = r.line → e.state = .done)
    {t : State} {x : Entry} (action : eligible (newEntry n r) (enrolled n r u s) = t) (entries : t.entries = s.entries ++ [x])
    (line : x.line = r.line) (active : x.state ≠ .blocked) : exec .admission s = .next t := by
  have first : nextEligible r.line (enrolled n r u s) = some (newEntry n r) :=
    (nextEligible_last (x := newEntry n r) older rfl rfl).trans (if_pos rfl)
  have last : nextEligible r.line t = none := (nextEligible_last older line entries).trans (if_neg active)
  subst action
  rw [exec_admission h offers free offered busy]
  exact congrArg _ (runChain_one first last)

theorem entryAt_enrolled (free : LowestFreeEntry n s) : entryAt n (enrolled n r u s) = some (newEntry n r) :=
  entryAt_appended free.1 _ rfl _ rfl

/-- The new entry issues (R99). -/
theorem issue_enrolled (free : LowestFreeEntry n s) : issue n (enrolled n r u s) = { s with
    up := u
    entries := s.entries ++ [{ newEntry n r with state := .issuing }]
    down := { s.down with hostReady := s.down.hostReady ++ [⟨.host n, r.op, r.line⟩] } } := by
  rw [issue_entry (entryAt_enrolled free)]
  simp only [enrolled, map_appended free.1 (newEntry n r) rfl fun e => { e with state := .issuing }]
  rfl

theorem setDone_enrolled (free : LowestFreeEntry n s) (st : UpStatus) : setDone n st (enrolled n r u s) = { s with
    up := u
    entries := s.entries ++ [{ newEntry n r with state := .done, status := some st }] } := by
  rw [setDone, modEntry, State.onEntries]
  simp only [enrolled, map_appended free.1 (newEntry n r) rfl fun e => { e with state := .done, status := some st }]

end

/-- Settles O40: nothing offered, a BLOCKED entry, or the first work of an eligible one. -/
theorem admission_spec : Obligations.Admission := by
  intro s h
  refine ⟨fun nothing => ?_, fun n r u offers free offered busy => ⟨fun a first active => ?_, fun older => ⟨fun kind => ?_,
    fun d empty => ?_⟩⟩⟩
  · have none : offeredToTracker s = none ∨ freeEntry s = none := by
      rcases nothing with full | noOffer
      · exact .inr (by simpa [freeEntry] using full)
      · refine .inl (Option.eq_none_iff_forall_ne_some.mpr fun p hp => ?_)
        obtain ⟨u, offers⟩ := offers_of_offered hp
        exact noOffer _ _ offers
    simp only [exec, execAdmission, event_taken h]
    rcases none with none | none <;> simp [none]
  · rw [exec_admission h offers free offered busy, releaseChain, runChain_stop]
    · rfl
    have found : (chain r.line (enrolled n r u s).entries).find? (fun e => e.state != .done) = some a := by
      simp [enrolled, chain, List.find?_append, first]
    rw [nextEligible, found]
    exact if_neg active
  · refine admission_eligible h offers free offered busy older (x := { newEntry n r with state := .issuing })
      (Eq.trans ?_ (issue_enrolled free)) rfl rfl nofun
    rcases kind with read | ⟨plain, mask, d, write, some_⟩
    · simp [eligible, newEntry, read]
    · simp only [eligible, newEntry, write, plain, if_neg some_]
  · refine admission_eligible h offers free offered busy older (x := { newEntry n r with state := .done, status := some .ok })
      (Eq.trans ?_ (setDone_enrolled free .ok)) rfl rfl nofun
    simp [eligible, newEntry, empty]

end Sys2Proof.Machine
end

section
/-! The ends of downstream requests, delivered to their owners, and what follows in the same step. -/

namespace Sys2Proof.Machine

-- One declaration at a time: elaborated in parallel, many quick ones exceed the memory limit.
set_option Elab.async false

/-! ## Events of a tag -/

section
variable {s : State} {t : Fin 32} {r : DownReq} {m : Timer} {kind : RwKind} {st : DownStatus} {data : LineData}

/-- A response that matches its request (R145). -/
theorem exec_response_matched (h : inReset s = false) (tag : tagState t s.down = some (.outstanding r (some m)))
    (match_ : opKind r.op = kind) : exec (.downstreamResponse t kind st data) s
      = .next (portFollow (controlFollow s (deliver r.owner (endOf st data)
          (latchIf (st == .other) .downstreamFault (freeTheTag t s))))) := by
  simp only [exec, execDownstreamResponse, event_taken h, takeDownResponse, tag, if_pos match_]

/-- A late response (R149). -/
theorem exec_response_late {o : Owner} (h : inReset s = false) (tag : tagState t s.down = some (.quarantined kind o)) :
    exec (.downstreamResponse t kind st data) s
      = .next (portFollow (controlFollow s (deliverFreed o (freeTheTag t s)))) := by
  simp only [exec, execDownstreamResponse, event_taken h, takeDownResponse, tag, if_true]

/-- A timeout (R148). -/
theorem exec_timeout (h : inReset s = false) (tag : tagState t s.down = some (.outstanding r (some m)))
    (limit : m.limit ≠ 0) : exec (.downstreamTimeout t) s = .next (portFollow (controlFollow s (timeOutTag t r s))) := by
  simp only [exec, execDownstreamTimeout, event_taken h, tag, if_neg limit]

end

/-- An event that leaves controller, cascade part and ports alone: nothing follows where no settle and no send
is due, and in SETTLING what follows is the settle's own step (R7, R10, R72). -/
theorem event_leaves {s u v : State} {i : Instr} (run : exec i s = .next (portFollow (controlFollow s v))) (same : v = u)
    (h : inReset u = false) (busy : ChannelsBusy s) (casc : u.casc = s.casc := by rfl)
    (ctrl : u.ckpt.ctrl = s.ckpt.ctrl := by rfl) (channel : u.down.channel = s.down.channel := by rfl)
    (up : u.up = s.up := by rfl) :
    (NoSettleDue u → NoSendDue s → exec i s = .next u)
      ∧ (∀ src, s.ckpt.ctrl = .settling .take src → exec i s = exec .takeSettled u)
      ∧ (∀ k src, s.ckpt.ctrl = .settling (.rollback k) src → exec i s = exec .rollbackSettled u) := by
  subst same
  obtain ⟨take, rollback⟩ := follow_settling h casc ctrl
  refine ⟨fun settles sends => ?_, fun src c => run.trans (take src c), fun k src c => run.trans (rollback k src c)⟩
  exact run.trans (congrArg _ (follow_notDue busy sends casc ctrl channel up (settle_none settles)))

/-! ## The end of a HOST request -/

section
variable {s u : State} {n : Fin 32} {e b : Entry} {l : Nat}

/-- Entry n is DONE by a response, its tag returned (R100). -/
def hostDone (n : Fin 32) (st : UpStatus) (d : LineData) (s : State) : State := { s with
  entries := s.entries.map fun x =>
    if x.num = n then
      { x with
        state := .done, status := some st, dtag := none
        readData := if x.op = .read then some d else x.readData }
    else x }

theorem finishEntry_entry (he : entryAt n s = some e) (st : UpStatus) :
    finishEntry n st s = releaseChain e.line (setDone n st s) := by
  simp only [finishEntry, he]

theorem hostEnd_eq (he : entryAt n s = some e) (st : UpStatus) (d : LineData) :
    hostEnd n st d s = releaseChain e.line (hostDone n st d s) := by
  rw [hostEnd, finishEntry_entry (entryAt_changed (f := fun x =>
    { x with dtag := none, readData := if x.op = .read then some d else x.readData }) he rfl fun _ => rfl), setDone,
    modEntry_modEntry]
  · rfl
  · exact fun _ => rfl

/-- The held entry n is DONE with ERROR once its tag is freed (R101). -/
theorem hostFreed_eq (he : entryAt n s = some e) : hostFreed n s = releaseChain e.line { s with
    entries := s.entries.map fun x =>
      if x.num = n then { x with state := .done, status := some .error, hold := false } else x } := by
  rw [hostFreed, finishEntry_entry (entryAt_changed (f := fun x => { x with hold := false }) he rfl fun _ => rfl), setDone,
    modEntry_modEntry]
  exact fun _ => rfl

/-- An entry that ends releases nothing on a line without a BLOCKED one. -/
theorem releaseChain_still {f : Entry → Entry} (still : ∀ x ∈ s.entries, x.line = l → x.state ≠ .blocked)
    (entries : u.entries = s.entries.map fun x => if x.num = n then f x else x) (done : ∀ x, (f x).state = .done) :
    releaseChain l u = u := by
  refine releaseChain_noBlocked fun y hy hl => ?_
  rw [entries] at hy
  obtain ⟨x, hx, rfl⟩ := List.mem_map.mp hy
  by_cases hn : x.num = n
  · simp [hn, done]
  · simp only [if_neg hn] at hl ⊢
    exact still x hx hl

theorem hostEnd_still (he : entryAt n s = some e) (still : ∀ x ∈ s.entries, x.line = e.line → x.state ≠ .blocked)
    (st : UpStatus) (d : LineData) : hostEnd n st d s = hostDone n st d s :=
  (hostEnd_eq he st d).trans (releaseChain_still still rfl fun _ => rfl)

theorem hostFreed_still (he : entryAt n s = some e) (still : ∀ x ∈ s.entries, x.line = e.line → x.state ≠ .blocked) :
    hostFreed n s = { s with
      entries := s.entries.map fun x =>
        if x.num = n then { x with state := .done, status := some .error, hold := false } else x } :=
  (hostFreed_eq he).trans (releaseChain_still still rfl fun _ => rfl)

/-- The one entry of a line that is not DONE is next, if BLOCKED (R94, R95). -/
theorem nextEligible_only (hb : entryAt b.num s = some b) (line : b.line = l) (blocked : b.state = .blocked)
    (others : ∀ x ∈ s.entries, x.line = l → x.num ≠ b.num → x.state = .done) : nextEligible l s = some b := by
  obtain ⟨-, older, younger, split, before⟩ := List.find?_eq_some_iff_append.mp hb
  have first : (chain l s.entries).find? (fun x => x.state != .done) = some b := by
    rw [chain, split, List.filter_append, List.filter_cons, if_pos (by simpa using line), List.find?_append,
      List.find?_eq_none.mpr, List.find?_cons]
    · simp only [blocked]
      rfl
    · intro x hx
      obtain ⟨mem, hl⟩ := List.mem_filter.mp hx
      have num : x.num ≠ b.num := by simpa using before x mem
      simpa using others x (by simp [split, mem]) (by simpa using hl) num
  rw [nextEligible, first]
  exact if_pos blocked

/-- The chain's action at its one BLOCKED entry, which the action leaves active or DONE (R95). -/
theorem releaseChain_only {f : Entry → Entry} (hb : entryAt b.num s = some b) (line : b.line = l) (blocked : b.state = .blocked)
    (others : ∀ x ∈ s.entries, x.line = l → x.num ≠ b.num → x.state = .done) (action : eligible b s = u)
    (entries : u.entries = s.entries.map fun x => if x.num = b.num then f x else x)
    (active : ∀ x, (f x).state ≠ .blocked) : releaseChain l s = u := by
  have last : nextEligible l u = none := by
    have noBlocked : ∀ y ∈ u.entries, y.line = l → y.state ≠ .blocked := by
      rw [entries]
      intro y hy hl
      obtain ⟨x, hx, rfl⟩ := List.mem_map.mp hy
      by_cases hn : x.num = b.num
      · simpa [hn] using active x
      · simp only [if_neg hn] at hl ⊢
        simp [others x hx hl hn]
    rw [nextEligible]
    split
    · rename_i y hy
      obtain ⟨mem, hl⟩ := List.mem_filter.mp (List.mem_of_find?_eq_some hy)
      exact if_neg (noBlocked y mem (by simpa using hl))
    · rfl
  subst action
  exact runChain_one (nextEligible_only hb line blocked others) last

/-- The entry n done, the others of its line are as they were. -/
theorem hostDone_others (st : UpStatus) (d : LineData)
    (others : ∀ x ∈ s.entries, x.line = l → x.num ≠ n → x.num ≠ b.num → x.state = .done) :
    ∀ x ∈ (hostDone n st d s).entries, x.line = l → x.num ≠ b.num → x.state = .done := by
  intro y hy hl hb
  obtain ⟨x, hx, rfl⟩ := List.mem_map.mp hy
  by_cases hn : x.num = n
  · simp [hn]
  · simp only [if_neg hn] at hl hb ⊢
    exact others x hx hl hn hb

theorem entryAt_hostDone (hb : entryAt b.num s = some b) (other : b.num ≠ n) (st : UpStatus) (d : LineData) :
    entryAt b.num (hostDone n st d s) = some b := by
  rw [entryAt_map (s := s) rfl (fun x => by split <;> rfl), hb, Option.map_some, if_neg other]

/-- The end of a HOST request whose line holds one BLOCKED entry, the rest DONE (R95). -/
theorem hostEnd_releases {f : Entry → Entry} {st : UpStatus} {d : LineData} (he : entryAt n s = some e)
    (hb : entryAt b.num s = some b) (other : b.num ≠ n) (line : b.line = e.line) (blocked : b.state = .blocked)
    (others : ∀ x ∈ s.entries, x.line = e.line → x.num ≠ n → x.num ≠ b.num → x.state = .done)
    (action : eligible b (hostDone n st d s) = u)
    (entries : u.entries = (hostDone n st d s).entries.map fun x => if x.num = b.num then f x else x)
    (active : ∀ x, (f x).state ≠ .blocked) : hostEnd n st d s = u :=
  (hostEnd_eq he st d).trans (releaseChain_only (entryAt_hostDone hb other st d) line blocked
    (hostDone_others st d others) action entries active)

end

/-- Settles O45: the ends of a HOST request with what they release, and responses and timeouts that match no
request. -/
theorem hostEndsAndUnmatched : Obligations.HostEndsAndUnmatched := by
  refine ⟨?_, fun s t kind st data h busy => ⟨fun settles sends bad => ?_, fun idle => ?_⟩⟩
  · intro s t n op line m e data h busy he leaves still freed ended
    refine ⟨fun tag => ⟨fun none => ⟨?_, ?_, ?_⟩, fun b hb other same blocked read others => ?_, fun limit => ?_,
      fun limit => ?_⟩, fun k st tag none => ?_⟩
    · exact event_leaves (exec_response_matched h tag rfl) (hostEnd_still (s := freeTheTag t s) he none .ok data) h busy
    · exact event_leaves (exec_response_matched h tag rfl) (hostEnd_still (s := freeTheTag t s) he none .error 0) h busy
    · exact event_leaves (exec_response_matched h tag rfl)
        (hostEnd_still (s := latch .downstreamFault (freeTheTag t s)) he none .error 0) h busy
    · have action : eligible b (hostDone n .ok data (freeTheTag t s)) = issue b.num (hostDone n .ok data (freeTheTag t s)) := by
        simp only [eligible, read]
      refine event_leaves (exec_response_matched h tag rfl)
        (hostEnd_releases (s := freeTheTag t s) (f := fun x => { x with state := .issuing }) he hb other same blocked others
          (action.trans ((issue_entry (entryAt_hostDone (s := freeTheTag t s) hb other .ok data)).trans ?_)) rfl
          fun _ => nofun) h busy
      rw [read]
      rfl
    · simp only [exec, execDownstreamTimeout, event_taken h, tag, if_pos limit]
    · exact event_leaves (exec_timeout h tag limit) rfl h busy
    · exact event_leaves (exec_response_late h tag) (hostFreed_still (s := freeTheTag t s) he none) h busy
  · have fault : takeDownResponse t kind st data s = latch .downstreamFault s := by
      rw [takeDownResponse]
      rcases bad with none | ⟨r, taken⟩ | ⟨r, m, other, kinds⟩ | ⟨k, o, quarantined, kinds⟩
      · simp only [none]
      · simp only [taken]
      · simp only [other, if_neg kinds]
      · simp only [quarantined, if_neg kinds]
    simp only [exec, execDownstreamResponse, event_taken h, fault]
    exact congrArg _ (follow_notDue busy sends rfl rfl rfl rfl (settle_notDue settles rfl rfl rfl))
  · simp only [exec, execDownstreamTimeout, event_taken h]
    rcases idle with none | ⟨r, taken⟩ | ⟨k, o, quarantined⟩
    · simp only [none]
    · simp only [taken]
    · simp only [quarantined]

end Sys2Proof.Machine
end

section
/-! The preservation step. -/

namespace Sys2Proof.Machine

-- One declaration at a time: elaborated in parallel, many quick ones exceed the memory limit.
set_option Elab.async false

/-! ## The step by what it finds -/

section
variable {u : State} {e : Entry} {n : Fin 32}

/-- A protected write counted. -/
def countedWrite (m : Mgmt) : Mgmt :=
  { m with counters := { m.counters with protectedWrites := satInc m.counters.protectedWrites } }

theorem preserving_counted (live : preserving u = true) : ¬ preserving (countProtectedWrite u) = false := by
  rw [show preserving (countProtectedWrite u) = true from live]
  nofun

theorem preservationStep_notPreserving (h : preserving u = false) :
    preservationStep e u = issue e.num { u with mgmt := countedWrite u.mgmt } := if_pos h

theorem preservationStep_hit (live : preserving u = true) (hit : filterHit e.line u = true) :
    preservationStep e u = issue e.num (countFilterHit { u with mgmt := countedWrite u.mgmt }) :=
  (if_neg (preserving_counted live)).trans (if_pos hit)

theorem preservationStep_miss (live : preserving u = true) (miss : ¬ filterHit e.line u = true) : preservationStep e u =
    if logFull u = false then reserve e.num { u with mgmt := countedWrite u.mgmt }
    else if rollbackSettling u then setDone e.num .fenced { u with mgmt := countedWrite u.mgmt }
    else
      match u.log.policy with
      | .stall => joinWaitList e.num { u with mgmt := countedWrite u.mgmt }
      | .break => issue e.num (breakAll { u with mgmt := countedWrite u.mgmt }) :=
  (if_neg (preserving_counted live)).trans (if_neg miss)

theorem rollbackSettling_iff (s : State) : rollbackSettling s = true ↔ ∃ k src, s.ckpt.ctrl = .settling (.rollback k) src := by
  unfold rollbackSettling
  split <;> simp_all

theorem logFull_iff (s : State) : logFull s = true ↔ (s.log.allocated - s.log.tail).toNat = s.log.capacity := by
  simp [logFull, occupancy]

theorem preserving_live {c : CkptRecord} (current : u.ckpt.stack.getLast? = some c) (live : c.state = .live) :
    preserving u = true := by simp [preserving, currentCkpt, current, live]

theorem filterHit_iff (line : Nat) (s : State) :
    filterHit line s = true ↔ ∃ w ∈ s.filter, w.line = line ∧ w.stamp = s.ckpt.generation := by
  simp [filterHit]

/-- A reservation, field by field (R31, R42, R55). -/
theorem reserve_fields {c : CkptRecord} (he : entryAt n u = some e) (current : currentCkpt u = some c) : reserve n u = { u with
    entries := u.entries.map fun x => if x.num = n then
      { x with state := .capturing, ctx := some (freshCtx u.log.allocated c.number) } else x
    log := { u.log with allocated := u.log.allocated + 1 }
    down := { u.down with preserveReady := u.down.preserveReady ++ [⟨.capture n, .read, e.line⟩] }
    mgmt := { u.mgmt with latches := if (u.log.allocated + 1 - u.log.tail).toNat = u.log.watermark
      then u.mgmt.latches ||| 0x008 else u.mgmt.latches } } := by
  simp only [reserve, he, current, latchIf]
  by_cases mark : (u.log.allocated + 1 - u.log.tail).toNat = u.log.watermark
  · rw [if_pos mark]
    exact if_pos (beq_iff_eq.mpr mark)
  · rw [if_neg mark]
    exact if_neg fun h => mark (beq_iff_eq.mp h)

theorem takeWhile_dropWhile_split {α : Type} {p : α → Bool} {older younger : List α} (ho : ∀ x ∈ older, p x = true)
    (hy : ∀ x ∈ younger, p x = false) :
    (older ++ younger).takeWhile p = older ∧ (older ++ younger).dropWhile p = younger := by
  have stop : younger.takeWhile p = [] ∧ younger.dropWhile p = younger := by
    cases younger with
    | nil => exact ⟨rfl, rfl⟩
    | cons y ys => simp [hy y (by simp)]
  rw [List.takeWhile_append_of_pos ho, List.dropWhile_append_of_pos ho, stop.1, stop.2, List.append_nil]
  exact ⟨rfl, rfl⟩

/-- An entry joins the wait list in acceptance sequence (R36, R37, R40). -/
theorem joinWaitList_fields {older younger : List (Fin 32)} (split : u.log.waitList = older ++ younger)
    (ho : ∀ m ∈ older, seqOf m u ≤ seqOf n u) (hy : ∀ m ∈ younger, seqOf n u < seqOf m u) : joinWaitList n u = { u with
      entries := u.entries.map fun x => if x.num = n then { x with state := .logWait } else x
      log := { u.log with
        waitList := older ++ n :: younger
        stallClock := if u.log.waitList = [] then 0 else u.log.stallClock }
      mgmt := { u.mgmt with
        latches := if u.log.waitList = [] then u.mgmt.latches ||| 0x010 else u.mgmt.latches } } := by
  obtain ⟨before, after⟩ := takeWhile_dropWhile_split (p := fun m => decide (seqOf m u ≤ seqOf n u)) (older := older)
    (younger := younger) (by simpa using ho) (by simpa using hy)
  have list : u.log.waitList.takeWhile (fun m => decide (seqOf m u ≤ seqOf n u))
      ++ n :: u.log.waitList.dropWhile (fun m => decide (seqOf m u ≤ seqOf n u)) = older ++ n :: younger := by
    rw [split, before, after]
  rw [← list]
  by_cases first : u.log.waitList = []
  · rw [if_pos first, if_pos first, joinWaitList, List.isEmpty_iff.mpr first]
    rfl
  · have notEmpty : u.log.waitList.isEmpty = false := by simpa using first
    rw [if_neg first, if_neg first, joinWaitList, notEmpty]
    rfl

end

/-! ## The step at an admission -/

section
variable {s : State} {n : Fin 32} {r : Accepted} {u : Upstream} {mask : ByteMask} {d : LineData}

/-- A protected write takes the preservation step when it is eligible (R98). -/
theorem eligible_protected {b : Entry} {s : State} (write : b.op = .write mask d) (some_ : mask ≠ 0)
    (guarded : b.cls = .guarded) : eligible b s = preservationStep b s := by
  simp only [eligible, write, guarded, if_neg some_]

theorem enrolled_map (free : LowestFreeEntry n s) (f : Entry → Entry) :
    (enrolled n r u s).entries.map (fun x => if x.num = n then f x else x) = s.entries ++ [f (newEntry n r)] :=
  map_appended free.1 (newEntry n r) rfl f

theorem seqOf_entry {m : Fin 32} {s : State} {e : Entry} (h : entryAt m s = some e) : seqOf m s = e.seq := by
  simp [seqOf, h]

/-- The others' entries are as they were. -/
theorem entryAt_enrolled_other {m : Fin 32} {e : Entry} (h : entryAt m s = some e) : entryAt m (enrolled n r u s) = some e := by
  rw [entryAt] at h
  rw [entryAt, enrolled, List.find?_append, h]
  rfl

theorem seqOf_enrolled_le (free : LowestFreeEntry n s) {m : Fin 32} (h : ∀ e, entryAt m s = some e → e.seq ≤ r.seq) :
    seqOf m (enrolled n r u s) ≤ seqOf n (enrolled n r u s) := by
  rw [seqOf_entry (entryAt_enrolled free)]
  cases hm : entryAt m s with
  | some e =>
    rw [seqOf_entry (entryAt_enrolled_other hm)]
    exact h e hm
  | none =>
    rw [entryAt] at hm
    rw [seqOf, entryAt, enrolled, List.find?_append, hm, Option.none_or, List.find?_cons]
    split <;> simp [newEntry]

theorem seqOf_enrolled_lt (free : LowestFreeEntry n s) {m : Fin 32} (h : ∃ e, entryAt m s = some e ∧ r.seq < e.seq) :
    seqOf n (enrolled n r u s) < seqOf m (enrolled n r u s) := by
  obtain ⟨e, he, less⟩ := h
  rwa [seqOf_entry (entryAt_enrolled free), seqOf_entry (entryAt_enrolled_other he)]

/-- States that agree but for their entries. -/
theorem State.eq_of_entries {a b : State} (entries : a.entries = b.entries) (rest : { a with entries := b.entries } = b := by rfl) :
    a = b := by
  rw [← rest, ← entries]

/-- A state whose newest entry is the new one issues it (R99). -/
theorem issue_newEntry (free : LowestFreeEntry n s) {v : State} (same : v.entries = s.entries ++ [newEntry n r]) :
    issue n v = { v with
      entries := s.entries ++ [{ newEntry n r with state := .issuing }]
      down := { v.down with hostReady := v.down.hostReady ++ [⟨.host n, r.op, r.line⟩] } } := by
  have found : entryAt n v = some (newEntry n r) := entryAt_appended free.1 _ rfl v same
  refine (issue_entry found).trans (State.eq_of_entries ?_)
  rw [same]
  exact map_appended free.1 (newEntry n r) rfl fun x => { x with state := .issuing }

end

/-! ## The step at the end of an older entry -/

section
variable {s u : State} {n : Fin 32} {b : Entry} {f : Entry → Entry} {d : LineData} {st : UpStatus}

/-- The entry n done and then the entry b changed, as one change. -/
theorem hostDone_map (other : b.num ≠ n) :
    (hostDone n st d s).entries.map (fun x => if x.num = b.num then f x else x) = s.entries.map fun x =>
      if x.num = n then
        { x with
          state := .done, status := some st, dtag := none
          readData := if x.op = .read then some d else x.readData }
      else if x.num = b.num then f x else x := by
  rw [hostDone, List.map_map]
  refine List.map_congr_left fun x _ => ?_
  by_cases hn : x.num = n
  · have away : ¬ n = b.num := fun h => other h.symm
    simp [hn, away]
  · simp [hn]

theorem seqOf_hostDone (m : Fin 32) : seqOf m (hostDone n st d s) = seqOf m s := by
  have seq (x : Entry) : (if x.num = n then
      { x with
        state := .done, status := some st, dtag := none
        readData := if x.op = .read then some d else x.readData }
      else x).seq = x.seq := by split <;> rfl
  rw [seqOf, entryAt_map (s := s) rfl (fun x => by split <;> rfl), Option.map_map, Function.comp_def]
  simp only [seq]
  rfl

theorem rollbackSettled_guarded {e : Entry} (mem : e ∈ s.entries) (guarded : e.cls = .guarded) : rollbackSettled s = false := by
  rw [rollbackSettled, List.all_eq_false]
  exact ⟨e, mem, by simp [guarded]⟩

/-- The preservation step of a BLOCKED write that the end of an older entry makes eligible (R95, R98). -/
theorem response_preserves {t : Fin 32} {op : LineOp} {line : Nat} {m : Timer} {e : Entry} {mask : ByteMask}
    {d' : LineData} (h : inReset s = false) (busy : ChannelsBusy s) (sends : NoSendDue s)
    (tag : tagState t s.down = some (.outstanding ⟨.host n, op, line⟩ (some m))) (he : entryAt n s = some e)
    (hb : entryAt b.num s = some b) (other : b.num ≠ n) (same : b.line = e.line) (blocked : b.state = .blocked)
    (others : ∀ x ∈ s.entries, x.line = e.line → x.num ≠ n → x.num ≠ b.num → x.state = .done)
    (write : b.op = .write mask d') (some_ : mask ≠ 0) (guarded : b.cls = .guarded)
    (step : preservationStep b (hostDone n .ok d (freeTheTag t s)) = u)
    (entries : u.entries = (hostDone n .ok d s).entries.map fun x => if x.num = b.num then f x else x)
    (active : ∀ x, (f x).state ≠ .blocked) (settles : settle u = u) : exec (.downstreamResponse t (opKind op) .ok d) s = .next u := by
  have ends : hostEnd n .ok d (freeTheTag t s) = u :=
    hostEnd_releases he hb other same blocked others ((eligible_protected write some_ guarded).trans step) entries active
  have run := exec_response_matched (st := .ok) (data := d) h tag rfl
  rw [show deliver (Owner.host n) (endOf .ok d) (latchIf (DownStatus.ok == .other) .downstreamFault (freeTheTag t s)) = u
    from ends] at run
  have casc : u.casc = s.casc := by simp [← step, hostDone, freeTheTag]
  have ctrl : u.ckpt.ctrl = s.ckpt.ctrl := by simp [← step, hostDone, freeTheTag]
  have channel : u.down.channel = s.down.channel := by simp [← step, hostDone, freeTheTag]
  have up : u.up = s.up := by simp [← step, hostDone, freeTheTag]
  exact run.trans (congrArg _ (follow_notDue busy sends casc ctrl channel up settles))

/-- A protected entry that the change of b leaves unfinished holds back every settle. -/
theorem settle_afterChange (hb : entryAt b.num s = some b) (other : b.num ≠ n)
    (entries : u.entries = (hostDone n st d s).entries.map fun x => if x.num = b.num then f x else x)
    (guarded : (f b).cls = .guarded) (active : (f b).state ≠ .done) : settle u = u :=
  settle_unsettled (unsettled_changed (entryAt_hostDone hb other st d) entries guarded active)

end

/-- Settles O41: each branch of the preservation step, at ADMISSION and at the end of an older entry. -/
theorem preservationStep_spec : Obligations.PreservationStep := by
  constructor
  · intro s n r u mask d h offers free offered busy older_ write some_ guarded counted hit full settling issued
    have admits {t : State} {x : Entry} (step : preservationStep (newEntry n r) (enrolled n r u s) = t) :=
      admission_eligible (x := x) h offers free offered busy older_ ((eligible_protected write some_ guarded).trans step)
    refine ⟨fun broken => ?_, fun c current live => ?_⟩
    · have off : preserving (enrolled n r u s) = false := by
        cases c : s.ckpt.stack.getLast? with
        | none => simp [preserving, currentCkpt, enrolled, c]
        | some x => simp [preserving, currentCkpt, enrolled, c, broken x c]
      exact admits ((preservationStep_notPreserving off).trans (issue_newEntry free rfl)) rfl rfl nofun
    have found : entryAt n (enrolled n r u s) = some (newEntry n r) := entryAt_enrolled free
    have mapped := enrolled_map (r := r) (u := u) free
    have on : preserving (enrolled n r u s) = true := preserving_live current live
    have isHit : filterHit r.line (enrolled n r u s) = true ↔ hit := filterHit_iff r.line _
    have isFull : logFull (enrolled n r u s) = true ↔ full := logFull_iff _
    have isSettling : rollbackSettling (enrolled n r u s) = true ↔ settling := rollbackSettling_iff _
    refine ⟨fun named => ?_, fun missed room => ?_, fun older younger missed isfull away stall split ho hy => ?_,
      fun missed isfull away break_ none => ?_⟩
    · exact admits ((preservationStep_hit on (isHit.mpr named)).trans (issue_newEntry free rfl)) rfl rfl nofun
    all_goals have step := preservationStep_miss (e := newEntry n r) on (mt isHit.mp missed)
    · rw [if_pos (Bool.eq_false_iff.mpr (mt isFull.mp room))] at step
      exact admits (step.trans ((reserve_fields (by exact found) (by exact current)).trans
        (State.eq_of_entries (mapped _)))) rfl rfl nofun
    all_goals rw [if_neg (by simp [isFull.mpr isfull]), if_neg (mt isSettling.mp away)] at step
    · rw [show (enrolled n r u s).log.policy = .stall from stall] at step
      have before : ∀ m ∈ older, seqOf m (enrolled n r u s) ≤ seqOf n (enrolled n r u s) := fun m hm =>
        seqOf_enrolled_le free (ho m hm)
      have behind : ∀ m ∈ younger, seqOf n (enrolled n r u s) < seqOf m (enrolled n r u s) := fun m hm =>
        seqOf_enrolled_lt free (hy m hm)
      exact admits (step.trans ((joinWaitList_fields (by exact split) (by exact before) (by exact behind)).trans
        (State.eq_of_entries (mapped _)))) rfl rfl nofun
    · rw [show (enrolled n r u s).log.policy = .break from break_] at step
      have broken := breakAll_live (s := { enrolled n r u s with mgmt := countedWrite s.mgmt })
        (List.mem_of_getLast? current) live none
      refine admits (step.trans ((congrArg _ broken).trans ((issue_newEntry free rfl).trans ?_))) rfl rfl nofun
      simp only [none]
      rfl
  · intro s t n line op m e b c mask d data h busy sends tag he hb other same blocked others write some_ guarded current live
      stale counted full settling freed after
    have ends {u : State} {f : Entry → Entry} (step : preservationStep b (hostDone n .ok data (freeTheTag t s)) = u) :=
      response_preserves (f := f) h busy sends tag he hb other same blocked others write some_ guarded step
    have found := entryAt_hostDone hb other .ok data
    have on : preserving (hostDone n .ok data (freeTheTag t s)) = true := preserving_live current live
    have missed : ¬ filterHit b.line (hostDone n .ok data (freeTheTag t s)) = true := by
      rw [filterHit_iff]
      rintro ⟨w, hw, hl, stamp⟩
      exact stale w hw hl stamp
    have isFull : logFull (hostDone n .ok data (freeTheTag t s)) = true ↔ full := logFull_iff _
    have isSettling : rollbackSettling (hostDone n .ok data (freeTheTag t s)) = true ↔ settling := rollbackSettling_iff _
    have step := preservationStep_miss on missed
    refine ⟨fun isfull settles => ?_, fun older younger isfull away stall split ho hy => ?_, fun room => ?_⟩
    · rw [if_neg (by simp [isFull.mpr isfull]), if_pos (isSettling.mpr settles)] at step
      obtain ⟨k, src, ctrl⟩ := settles
      have fenced := entryAt_changed (f := fun x => { x with state := .done, status := some .fenced }) found
        (u := { s with entries := after fun x => { x with state := .done, status := some .fenced } })
        (hostDone_map other).symm fun _ => rfl
      refine ends (step.trans (State.eq_of_entries (hostDone_map other))) (hostDone_map other).symm (fun _ => nofun)
        (settle_none ⟨fun src' ctrl' => ?_, fun _ _ _ => rollbackSettled_guarded (List.mem_of_find?_eq_some fenced) guarded⟩)
      exact absurd (ctrl.symm.trans ctrl') nofun
    · rw [if_neg (by simp [isFull.mpr isfull]), if_neg (mt isSettling.mp away),
        show (hostDone n .ok data (freeTheTag t s)).log.policy = .stall from stall] at step
      have before : ∀ m ∈ older, seqOf m (hostDone n .ok data s) ≤ seqOf b.num (hostDone n .ok data s) := fun m hm => by
        rw [seqOf_hostDone, seqOf_hostDone, seqOf_entry hb]
        cases he : entryAt m s with
        | none => simp [seqOf, he]
        | some x => exact (seqOf_entry he).trans_le (ho m hm x he)
      have behind : ∀ m ∈ younger, seqOf b.num (hostDone n .ok data s) < seqOf m (hostDone n .ok data s) := fun m hm => by
        obtain ⟨x, hx, less⟩ := hy m hm
        rwa [seqOf_hostDone, seqOf_hostDone, seqOf_entry hb, seqOf_entry hx]
      exact ends (step.trans ((joinWaitList_fields (by exact split) (by exact before) (by exact behind)).trans
        (State.eq_of_entries (hostDone_map other)))) (hostDone_map other).symm (fun _ => nofun)
        (settle_afterChange hb other (hostDone_map other).symm guarded nofun)
    · rw [if_pos (Bool.eq_false_iff.mpr (mt isFull.mp room))] at step
      exact ends (step.trans ((reserve_fields (by exact found) (by exact current)).trans
        (State.eq_of_entries (hostDone_map other)))) (hostDone_map other).symm (fun _ => nofun)
        (settle_afterChange hb other (hostDone_map other).symm guarded nofun)

end Sys2Proof.Machine
end

section
/-! The response channel, the grant, and the exit from COMMIT_WAIT. -/

namespace Sys2Proof.Machine

-- One declaration at a time: elaborated in parallel, many quick ones exceed the memory limit.
set_option Elab.async false

/-! ## The response channel -/

section
variable {s t : State} {q : Nat}

theorem mem_readySeqs : q ∈ readySeqs s
    ↔ (∃ e ∈ s.entries, e.state = .done ∧ e.seq = q) ∨ ∃ r ∈ s.up.refusals, r.seq = q := by
  simp [readySeqs, and_assoc]

theorem offerIfDue_free (free : s.up.channel = none) :
    offerIfDue s = { s with up := { s.up with channel := (readySeqs s).min? } } := by
  rw [offerIfDue, if_pos (by simp [free])]
  rfl

theorem exec_responseOffer (h : inReset s = false) : exec .responseOffer s = .next (offerIfDue s) :=
  event_taken (f := offerIfDue) h

theorem exec_responseTaken (h : inReset s = false) (channel : s.up.channel = some q) :
    exec .responseTaken s = .next (portFollow (controlFollow s (takeOffered (takeResponse q s)))) := by
  simp only [exec, execResponseTaken, event_taken h, channel]

/-- No settle, send or trigger check follows an event that leaves controller and cascade part alone, where none
is due. -/
theorem controlFollow_notDue (settles : NoSettleDue t) (sends : NoSendDue s) (casc : t.casc = s.casc)
    (ctrl : t.ckpt.ctrl = s.ckpt.ctrl) : controlFollow s t = t := by
  have op : longOp t = longOp s := by simp [longOp, casc, ctrl]
  rw [controlFollow, settle_none settles, cascadeFollow_notDue (noSendDue_same sends casc), op, Bool.and_not_self, if_neg nofun]

/-- What a response taken leads to: the next offer, and in SETTLING the settle's own step. -/
theorem responseTaken_leaves (h : inReset s = false) (channel : s.up.channel = some q)
    (leaves : takeResponse q s = t) (reset : inReset t = false) (casc : t.casc = s.casc)
    (ctrl : t.ckpt.ctrl = s.ckpt.ctrl) (down : t.down = s.down) (freed : t.up.channel = none ∧ t.up.offered = none) :
    (s.down.channel.isSome = true → NoSettleDue t → NoSendDue s →
        exec .responseTaken s = .next { t with up := { t.up with channel := (readySeqs t).min? } })
      ∧ (∀ src, s.ckpt.ctrl = .settling .take src → exec .responseTaken s = exec .takeSettled t)
      ∧ (∀ k src, s.ckpt.ctrl = .settling (.rollback k) src → exec .responseTaken s = exec .rollbackSettled t) := by
  have run := exec_responseTaken h channel
  rw [leaves, takeOffered_none freed.2] at run
  obtain ⟨take, rollback⟩ := follow_settling reset casc ctrl
  refine ⟨fun busy settles sends => ?_, fun src c => run.trans (take src c), fun k src c => run.trans (rollback k src c)⟩
  rw [run, controlFollow_notDue settles sends casc ctrl, portFollow, grantIfDue_busy (by rw [down]; exact busy),
    offerIfDue_free freed.1]

end

/-- Settles O43: the offer of the oldest ready item, and the taking of an entry's or a refusal's response. -/
theorem responses : Obligations.Responses := by
  intro s h readySeq
  refine ⟨fun idle => ?_, fun q free ready oldest => ?_, fun free => ?_, fun q channel offered => ⟨fun e found => ?_,
    fun r none found => ?_⟩⟩
  · rw [exec_responseOffer h]
    rcases idle with busy | none
    · rw [offerIfDue_busy busy]
    · have empty : readySeqs s = [] := List.eq_nil_iff_forall_not_mem.mpr fun q hq => none q (mem_readySeqs.mp hq)
      cases channel : s.up.channel with
      | some q => rw [offerIfDue_busy (by rw [channel]; rfl)]
      | none =>
        rw [offerIfDue_free channel, empty, show ([] : List Nat).min? = s.up.channel from channel.symm]
  · have least : (readySeqs s).min? = some q :=
      List.min?_eq_some_iff.mpr ⟨mem_readySeqs.mpr ready, fun q' hq' => oldest q' (mem_readySeqs.mp hq')⟩
    rw [exec_responseOffer h, offerIfDue_free free, least]
  · simp only [exec, execResponseTaken, event_taken h, free]
  · refine responseTaken_leaves h channel ?_ h rfl rfl rfl ⟨rfl, offered⟩
    simp only [takeResponse, found]
    rfl
  · refine responseTaken_leaves h channel ?_ h rfl rfl rfl ⟨rfl, offered⟩
    have away : s.entries.find? (fun x => x.seq == q) = Option.none := by simpa using none
    simp only [takeResponse, away, found]
    rfl

/-! ## The grant -/

section
variable {s : State} {t : Fin 32}

theorem exec_grant (h : inReset s = false) : exec .grant s = .next (grantIfDue s) := event_taken (f := grantIfDue) h

theorem chooseClass_none {d : Downstream} (host : d.hostReady = []) (preserve : d.preserveReady = [])
    (restore : d.restoreReady = []) : chooseClass d = none := by
  have noneReady (c : DownClass) : hasReady d c = false := by cases c <;> simp [hasReady, readyList, host, preserve, restore]
  simp [chooseClass, noneReady]

theorem hasReady_iff (d : Downstream) (c : DownClass) : hasReady d c = true ↔ readyList c d ≠ [] := by simp [hasReady]

/-- With no ready request, or no tag free below the limit, none is granted (R143). -/
theorem grantIfDue_none (idle : s.down.channel.isSome = true ∨ chooseClass s.down = none ∨ freeTag s.down = none) :
    grantIfDue s = s := by
  unfold grantIfDue
  rcases idle with busy | none | none
  · exact grantIfDue_busy busy
  · simp [none]
  · simp [none]

theorem grantIfDue_grants {c : DownClass} {used : Nat} {r : DownReq} {rest : List DownReq} (free : s.down.channel = none)
    (chosen : chooseClass s.down = some (c, used)) (tag : freeTag s.down = some t) (ready : readyList c s.down = r :: rest) :
    grantIfDue s = grantUnder c used t r s := by
  simp only [grantIfDue, free, chosen, tag, ready]

/-- The arbiter's rule (R144): the class of the turn while it may stay, else the next with a ready request. -/
theorem chooseClass_eq {d : Downstream} {c : DownClass} {used : Nat} (ready : readyList c d ≠ [])
    (rule : ((readyList d.turn d ≠ [] ∧ d.used < weightOf d.turn d) ∧ c = d.turn ∧ used = d.used + 1)
      ∨ (¬ (readyList d.turn d ≠ [] ∧ d.used < weightOf d.turn d) ∧ used = 1 ∧ (c = nextClass d.turn
        ∨ (readyList (nextClass d.turn) d = [] ∧ c = nextClass (nextClass d.turn))
        ∨ (readyList (nextClass d.turn) d = [] ∧ readyList (nextClass (nextClass d.turn)) d = [] ∧ c = d.turn)))) :
    chooseClass d = some (c, used) := by
  have mayStay : (hasReady d d.turn && decide (d.used < weightOf d.turn d)) = true
      ↔ readyList d.turn d ≠ [] ∧ d.used < weightOf d.turn d := by
    rw [Bool.and_eq_true, hasReady_iff, decide_eq_true_iff]
  have off {x : DownClass} (h : readyList x d = []) : hasReady d x = false := by simp [hasReady, h]
  have on : hasReady d c = true := (hasReady_iff d c).mpr ready
  rcases rule with ⟨stay, rfl, rfl⟩ | ⟨moves, rfl, next⟩
  · rw [chooseClass, if_pos (mayStay.mpr stay)]
  · rw [chooseClass, if_neg (mt mayStay.mp moves)]
    rcases next with rfl | ⟨first, rfl⟩ | ⟨first, second, rfl⟩
    · simp [on]
    · simp [off first, on]
    · simp [off first, off second, on]

end

/-- Settles O44: no grant, the grant by the class chosen, and the taking of the offered request. -/
theorem grant_spec : Obligations.Grant := by
  intro s h
  refine ⟨fun idle => ?_, ?_, fun free => ?_, ?_⟩
  · rw [exec_grant h, grantIfDue_none]
    refine idle.imp_right fun idle => idle.imp (fun ⟨host, preserve, restore⟩ => chooseClass_none host preserve restore) ?_
    intro full
    simpa [freeTag] using full
  · intro t c used r rest turn mayStay d tell free lowest ready rule
    have granted : exec .grant s = .next (tellGranted r.owner t { s with down := d }) := by
      rw [exec_grant h, grantIfDue_grants free (chooseClass_eq (by simp [ready]) rule) (freeTag_lowest lowest) ready, grantUnder]
      congr 2
      cases c <;> simp_all [State.onDown, popReady, readyList, d]
    refine ⟨fun n owner => ?_, fun n owner => ?_, fun n owner => ?_, fun owner => ?_⟩
    · rw [granted]
      rcases owner with owner | owner <;> rw [owner] <;> rfl
    · rw [granted, owner]
      rfl
    · rw [granted, owner]
      rfl
    · rw [granted]
      rcases owner with owner | owner | owner <;> rw [owner] <;> rfl
  · simp only [exec, execDownstreamRequestTaken, event_taken h, free]
  · intro t r o channel tag taken
    have takes : exec .downstreamRequestTaken s = .next (grantIfDue taken) := by
      simp only [exec, execDownstreamRequestTaken, event_taken h, channel]
      have tag' : tagState t (s.onDown fun d => { d with channel := none }).down = some (.outstanding r o) := tag
      simp only [takeDownRequest, tag']
      rfl
    refine ⟨?_, fun host preserve restore => ?_⟩
    · rw [takes, exec_grant (by exact h)]
    · rw [takes, grantIfDue_none (s := taken) (.inr (.inl (chooseClass_none host preserve restore)))]

end Sys2Proof.Machine
end

section
/-! The exit from COMMIT_WAIT, with the filter insert. -/

namespace Sys2Proof.Machine

-- One declaration at a time: elaborated in parallel, many quick ones exceed the memory limit.
set_option Elab.async false

/-! ## The way an insert writes -/

theorem find?_finRange {m : Nat} {p : Fin m → Bool} {i : Fin m} (hi : p i = true) (lower : ∀ j < i, p j = false) :
    (List.finRange m).find? p = some i := by
  refine List.find?_eq_some_iff_getElem.mpr ⟨hi, i.val, by simp, by simp, fun j hj => ?_⟩
  simpa using lower ⟨j, hj.trans i.isLt⟩ hj

section
variable {line : Nat} {g : BitVec 16} {ways : List FilterWay} {w : FilterWay}

/-- The way already naming the line is rewritten (R49). -/
theorem victim_rewrites (named : ways.find? (fun w => w.line == line) = some w) : victim line g ways = (w.way, false) := by
  simp only [victim, named]

/-- Else the lowest invalid way (R49). -/
theorem victim_invalid {i : Fin 4} (unnamed : ∀ w ∈ ways, w.line ≠ line) (invalid : ∀ w ∈ ways, w.way ≠ i)
    (lower : ∀ j < i, ∃ w ∈ ways, w.way = j) : victim line g ways = (i, false) := by
  have none : ways.find? (fun w => w.line == line) = Option.none := by simpa using unnamed
  have lowest : (List.finRange 4).find? (fun i => ways.all fun w => w.way != i) = some i :=
    find?_finRange (by simpa using invalid) fun j hj => by simpa using lower j hj
  simp only [victim, none, lowest]

theorem victim_allValid (unnamed : ∀ w ∈ ways, w.line ≠ line) (valid : ∀ i : Fin 4, ∃ w ∈ ways, w.way = i) :
    victim line g ways = match ways.find? (fun w => w.stamp != g) with
      | some w => (w.way, false)
      | none =>
        match ways.head? with
        | some w => (w.way, true)
        | none => (0, false) := by
  have none : ways.find? (fun w => w.line == line) = Option.none := by simpa using unnamed
  have noneInvalid : (List.finRange 4).find? (fun i => ways.all fun w => w.way != i) = Option.none := by simpa using valid
  simp only [victim, none, noneInvalid] <;> rfl

/-- Else the oldest written stale way (R49). -/
theorem victim_stale (unnamed : ∀ w ∈ ways, w.line ≠ line) (valid : ∀ i : Fin 4, ∃ w ∈ ways, w.way = i)
    (stale : ways.find? (fun w => w.stamp != g) = some w) : victim line g ways = (w.way, false) := by
  rw [victim_allValid unnamed valid]
  simp only [stale]

/-- Else the oldest written way, a displacement (R49). -/
theorem victim_displaces (unnamed : ∀ w ∈ ways, w.line ≠ line) (valid : ∀ i : Fin 4, ∃ w ∈ ways, w.way = i)
    (current : ∀ w ∈ ways, w.stamp = g) (oldest : ways.head? = some w) : victim line g ways = (w.way, true) := by
  have none : ways.find? (fun w => w.stamp != g) = Option.none := by simpa using current
  rw [victim_allValid unnamed valid]
  simp only [none, oldest]

end

/-! ## The exit -/

section
variable {s : State} {n : Fin 32} {e : Entry} {c : RecordCtx}

theorem exec_commitWaitExit (h : inReset s = false) :
    exec (.commitWaitExit n) s = .next (if mayExit n s then grantIfDue (leaveCommitWait n s) else s) :=
  event_taken (f := fun s => if mayExit n s then grantIfDue (leaveCommitWait n s) else s) h

theorem mayExit_entry (he : entryAt n s = some e) (hc : e.ctx = some c) : mayExit n s = true ↔
    e.state = .commitWait ∧ (s.log.allocated - s.log.head).toNat ≤ (c.position - s.log.head).toNat
      ∧ c.captureQuarantined = false := by
  simp [mayExit, he, hc, pastHead]

/-- The entry's context discarded and its write forwarded, after what the filter took (R63). -/
theorem issue_contextless (he : entryAt n s = some e) : issue n (modEntry n (fun e => { e with ctx := none }) s) = { s with
    entries := s.entries.map fun x => if x.num = n then { x with state := .issuing, ctx := none } else x
    down := { s.down with hostReady := s.down.hostReady ++ [⟨.host n, e.op, e.line⟩] } } := by
  rw [issue_entry (entryAt_changed (f := fun e => { e with ctx := none }) he rfl fun _ => rfl)]
  refine State.eq_of_entries ?_
  simp only [modEntry, State.onEntries_entries, List.map_map]
  refine List.map_congr_left fun x _ => ?_
  by_cases hx : x.num = n <;> simp [hx]

theorem leaveCommitWait_unrecorded (he : entryAt n s = some e) (hc : e.ctx = some c)
    (skips : preserving s = false ∨ c.outcome = some .failed) :
    leaveCommitWait n s = issue n (modEntry n (fun e => { e with ctx := none }) s) := by
  simp only [leaveCommitWait, he, hc]
  rcases skips with off | failed
  · simp [off]
  · simp [failed]

theorem leaveCommitWait_recorded (he : entryAt n s = some e) (hc : e.ctx = some c) (on : preserving s = true)
    (recorded : c.outcome = some .written ∨ c.outcome = some .poisoned) :
    leaveCommitWait n s = issue n (modEntry n (fun e => { e with ctx := none }) (filterInsert e.line s)) := by
  simp only [leaveCommitWait, he, hc]
  rcases recorded with outcome | outcome <;> simp [on, outcome]

/-- An insert, field by field (R49, R50). -/
theorem filterInsert_fields {line : Nat} {i : Fin 4} {displaced : Bool}
    (way : victim line s.ckpt.generation (setWays line s.filter) = (i, displaced)) : filterInsert line s = { s with
      filter := s.filter.filter (fun w => !(w.line % 1024 == line % 1024 && w.way == i)) ++ [⟨i, line, s.ckpt.generation⟩]
      mgmt := { s.mgmt with counters := { s.mgmt.counters with filterDisplacements :=
        (if displaced then satInc s.mgmt.counters.filterDisplacements else s.mgmt.counters.filterDisplacements) } } } := by
  simp only [filterInsert, way]
  cases displaced <;> rfl

end

/-- Settles O49: the entry stays, leaves without an insert, or leaves with the insert of the way of R49. -/
theorem commitWaitExit_spec : Obligations.CommitWaitExit := by
  intro s n e c h busy he hc gone ways put
  refine ⟨fun stays => ?_, fun waits freed passed => ⟨fun skips => ?_, fun r recorded current live => ?_⟩⟩
  · rw [exec_commitWaitExit h, if_neg]
    rw [mayExit_entry he hc]
    rintro ⟨waits, passed, freed⟩
    rcases stays with away | held | below
    · exact away waits
    · simp [held] at freed
    · omega
  all_goals have exits : mayExit n s = true := (mayExit_entry he hc).mpr ⟨waits, passed, freed⟩
  · have unrecorded : preserving s = false ∨ c.outcome = some .failed := skips.symm.imp_left fun broken => by
      cases top : s.ckpt.stack.getLast? with
      | none => simp [preserving, currentCkpt, top]
      | some x => simp [preserving, currentCkpt, top, broken x top]
    rw [exec_commitWaitExit h, if_pos exits, leaveCommitWait_unrecorded he hc unrecorded, issue_contextless he,
      grantIfDue_busy (by exact busy.1)]
  · have inserts {i : Fin 4} {displaced : Bool} (way : victim e.line s.ckpt.generation (setWays e.line s.filter) = (i, displaced)) :
        exec (.commitWaitExit n) s = .next { gone (put i) with
          mgmt := { s.mgmt with counters := { s.mgmt.counters with filterDisplacements :=
            (if displaced then satInc s.mgmt.counters.filterDisplacements else s.mgmt.counters.filterDisplacements) } } } := by
      rw [exec_commitWaitExit h, if_pos exits, leaveCommitWait_recorded he hc (preserving_live current live) recorded,
        filterInsert_fields way, issue_contextless (by exact he), grantIfDue_busy (by exact busy.1)]
    refine ⟨fun w named => inserts (victim_rewrites named), fun unnamed => ?_⟩
    have unnamed' : ∀ w ∈ setWays e.line s.filter, w.line ≠ e.line := fun w hw => unnamed w (List.mem_filter.mp hw).1
    exact ⟨fun i invalid lower => inserts (victim_invalid unnamed' invalid lower), fun valid =>
      ⟨fun w stale => inserts (victim_stale unnamed' valid stale),
        fun w fresh oldest => inserts (victim_displaces unnamed' valid fresh oldest)⟩⟩

end Sys2Proof.Machine
end

section
/-! The end of a capture read. -/

namespace Sys2Proof.Machine

-- One declaration at a time: elaborated in parallel, many quick ones exceed the memory limit.
set_option Elab.async false

/-! ## Captures -/

section
variable {s : State} {n : Fin 32} {e : Entry} {c : RecordCtx}

/-- The capture's entry goes to RECORDING, its context changed (R57, R58). -/
def recording (n : Fin 32) (f : RecordCtx → RecordCtx) (s : State) : List Entry := s.entries.map fun x =>
  if x.num = n then { x with state := .recording, dtag := none, ctx := x.ctx.map f } else x

theorem modCtx_recording (f : RecordCtx → RecordCtx) (s : State) :
    modCtx n f (modEntry n (fun e => { e with state := .recording, dtag := none }) s) = { s with entries := recording n f s } :=
  modCtx_modEntry s _ f fun _ => rfl

/-- The header write of an entry's record. -/
def headerWrite (n : Fin 32) (e : Entry) (c : RecordCtx) (old : Option LineData) (l : Log) : DownReq :=
  ⟨.headerWrite n, .write (BitVec.allOnes 64) (assembleHeader c.number c.position e.line old),
    l.base + 2 * (c.position.toNat % l.capacity)⟩

theorem captureOk_fields (he : entryAt n s = some e) (hc : e.ctx = some c) (data : LineData) : captureOk n data s = { s with
    entries := recording n (fun c => { c with capture := .captured data, header := .waiting, data := .waiting }) s
    down := { s.down with preserveReady := s.down.preserveReady ++ [headerWrite n e c (some data) s.log,
      ⟨.dataWrite n, .write (BitVec.allOnes 64) data, s.log.base + 2 * (c.position.toNat % s.log.capacity) + 1⟩] } } := by
  simp only [captureOk, he, hc, modCtx_recording]
  simp only [pushPreserve, State.onDown, List.append_assoc, List.singleton_append, headerWriteReq, dataWriteReq, entryAt_num he]
  rfl

theorem capturePoison_fields (he : entryAt n s = some e) (hc : e.ctx = some c) (timedOut : Bool) :
    capturePoison n timedOut s = { s with
      entries := recording n (fun c =>
        { c with capture := .poisoned, captureQuarantined := timedOut, header := .waiting }) s
      down := { s.down with preserveReady := s.down.preserveReady ++ [headerWrite n e c none s.log] }
      mgmt := { s.mgmt with latches := s.mgmt.latches ||| 0x020 } } := by
  simp only [capturePoison, he, hc, modCtx_recording]
  simp only [pushPreserve, State.onDown, headerWriteReq, entryAt_num he]
  rfl

/-- Two causes latched one after the other. -/
theorem latches_twice (x a b : BitVec 10) : x ||| a ||| b = x ||| (a ||| b) := BitVec.or_assoc x a b

end

/-! ## Exits that follow an event -/

section
variable {s u : State} {n : Fin 32} {e : Entry}

theorem exitIfReady_notReady (stays : mayExit n u = false) : exitIfReady n u = u := by
  rw [exitIfReady, if_neg (by simp [stays])]

/-- The exit leaves a PROTECTED entry unfinished. -/
theorem settled_exitIfReady (he : entryAt n u = some e) (guarded : e.cls = .guarded) (active : e.state ≠ .done) :
    settled (exitIfReady n u) = false := by
  rw [exitIfReady]
  split_ifs
  · obtain ⟨filter, mgmt, fields⟩ := leaveCommitWait_fields he
    refine unsettled_changed (f := fun x => { x with state := .issuing, ctx := none }) he ?_ guarded nofun
    rw [fields]
  · exact unsettled_changed (f := id) he (by simp) guarded active

/-- An entry's exit at the end of an event is the exit of COMMIT_WAIT_EXIT (R62, log 17). -/
theorem exit_follow (h : inReset u = false) (busy : ChannelsBusy s) (sends : NoSendDue s) (casc : u.casc = s.casc)
    (ctrl : u.ckpt.ctrl = s.ckpt.ctrl) (channel : u.down.channel = s.down.channel) (up : u.up = s.up)
    (he : entryAt n u = some e) (guarded : e.cls = .guarded) (active : e.state ≠ .done) :
    .next (portFollow (controlFollow s (exitIfReady n u))) = exec (.commitWaitExit n) u := by
  have kept : (exitIfReady n u).casc = s.casc ∧ (exitIfReady n u).ckpt.ctrl = s.ckpt.ctrl
      ∧ (exitIfReady n u).down.channel = s.down.channel ∧ (exitIfReady n u).up = s.up := by
    rw [← casc, ← ctrl, ← channel, ← up]
    simp
  obtain ⟨casc', ctrl', channel', up'⟩ := kept
  rw [follow_unsettled busy sends casc' ctrl' channel' up' (settled_exitIfReady he guarded active), exec_commitWaitExit h,
    exitIfReady]
  split_ifs with exits
  · rw [grantIfDue_busy]
    rw [exitIfReady, if_pos exits] at channel'
    rw [channel']
    exact busy.1
  · rfl

end

/-- Settles O46: the three ends of a capture read, and its late response. -/
theorem captureEnds : Obligations.CaptureEnds := by
  intro s t n line m e c data h busy he hc leaves slot freed change poison header
  refine ⟨fun tag => ⟨?_, ?_, fun limit => ?_⟩, fun st tag => ?_⟩
  · exact event_leaves (exec_response_matched h tag rfl) (captureOk_fields (s := freeTheTag t s) he hc data) h busy
  · exact event_leaves (exec_response_matched h tag rfl) (capturePoison_fields (s := freeTheTag t s) he hc false) h busy
  · refine event_leaves (exec_timeout h tag limit) ((capturePoison_fields
      (s := latch .downstreamFault (countTimeout (setTag t (.quarantined .read (.capture n)) s))) he hc true).trans ?_) h busy
    simp only [latch, State.onMgmt_mgmt, latches_twice]
    rfl
  · intro late
    have he' : entryAt n late = some { e with ctx := e.ctx.map fun c => { c with captureQuarantined := false } } :=
      entryAt_changed (f := fun x => { x with ctx := x.ctx.map fun c => { c with captureQuarantined := false } }) he rfl
        fun _ => rfl
    refine ⟨fun state => ?_, fun state guarded sends => ?_⟩
    · refine event_leaves (exec_response_late h tag) (exitIfReady_notReady (u := late) ?_) h busy
      simp [mayExit, he', state]
    · exact (exec_response_late h tag).trans (exit_follow (u := late) h busy sends rfl rfl rfl rfl he' guarded (by simp [state]))

end Sys2Proof.Machine
end

section
/-! The ends of record writes. -/

namespace Sys2Proof.Machine

-- One declaration at a time: elaborated in parallel, many quick ones exceed the memory limit.
set_option Elab.async false

/-! ## Record writes by their record -/

section
variable {s u : State} {n : Fin 32} {e : Entry} {c : RecordCtx} {w : RecWrite}

/-- The owner of a record write. -/
def recordOwner (w : RecWrite) (n : Fin 32) : Owner :=
  match w with
  | .header => .headerWrite n
  | .data => .dataWrite n

/-- The other write of the record. -/
def otherWrite (w : RecWrite) (c : RecordCtx) : WriteState :=
  match w with
  | .header => c.data
  | .data => c.header

theorem deliver_recordOk (w : RecWrite) (n : Fin 32) (d : LineData) (s : State) :
    deliver (recordOwner w n) (.ok d) s = recordWriteOk n w s := by cases w <;> rfl

theorem deliver_recordError (w : RecWrite) (n : Fin 32) (s : State) :
    deliver (recordOwner w n) .error s = recordWriteBad n w false s := by cases w <;> rfl

theorem deliver_recordTimeout (w : RecWrite) (n : Fin 32) (s : State) :
    deliver (recordOwner w n) .timeout s = recordWriteBad n w true s := by cases w <;> rfl

theorem deliverFreed_record (w : RecWrite) (n : Fin 32) (s : State) :
    deliverFreed (recordOwner w n) s = recordWriteFreed n s := by cases w <;> rfl

/-- The entries with the context of entry n changed. -/
def noted (n : Fin 32) (f : RecordCtx → RecordCtx) (es : List Entry) : List Entry :=
  es.map fun x => if x.num = n then { x with ctx := x.ctx.map f } else x

theorem modCtx_eq (n : Fin 32) (f : RecordCtx → RecordCtx) (s : State) :
    modCtx n f s = { s with entries := noted n f s.entries } := rfl

theorem ctxAt_noted (he : entryAt n s = some e) (hc : e.ctx = some c) {f : RecordCtx → RecordCtx}
    (entries : u.entries = noted n f s.entries) : ctxAt n u = some (f c) := ctxAt_changed he hc entries

/-! ## The notice of a record's end -/

/-- A record with a write that waits, is outstanding or is quarantined has not ended (R60, R61). -/
theorem endRecord_open (ctx : ctxAt n u = some c) (outcome : c.outcome = none)
    (open_ : (c.failed = false ∧ ¬ (c.header = .acknowledged ∧ (c.data = .acknowledged ∨ c.data = .absent)))
      ∨ (c.failed = true ∧ (c.header = .waiting ∨ c.header = .outstanding ∨ c.data = .waiting ∨ c.data = .outstanding
        ∨ c.quarantined ≠ 0))) : endRecord n u = u := by
  simp only [endRecord, ctx, outcome]
  rw [if_neg nofun]
  rcases open_ with ⟨good, waits⟩ | ⟨failed, waits⟩
  · rw [if_neg (by simp [good]), if_neg (by simpa using waits)]
  · rw [if_pos failed, if_pos (by simp [writePending]; tauto)]

/-- A record whose writes are all acknowledged has ended (R60). -/
theorem endRecord_acknowledged (ctx : ctxAt n u = some c) (outcome : c.outcome = none) (good : c.failed = false)
    (header : c.header = .acknowledged) (data : c.data = .acknowledged ∨ c.data = .absent) :
    endRecord n u = finishRecord n (if c.capture = .poisoned then .poisoned else .written) u := by
  simp only [endRecord, ctx, outcome]
  rw [if_neg nofun, if_neg (by simp [good]), if_pos (by simpa [header] using data)]

/-- A failed record ends with its last write (R61). -/
theorem endRecord_failed (ctx : ctxAt n u = some c) (outcome : c.outcome = none) (failed : c.failed = true)
    (header : c.header ≠ .waiting ∧ c.header ≠ .outstanding) (data : c.data ≠ .waiting ∧ c.data ≠ .outstanding)
    (quarantined : c.quarantined = 0) : endRecord n u = finishRecord n .failed u := by
  simp only [endRecord, ctx, outcome]
  rw [if_neg nofun, if_pos failed, if_neg (by simp [writePending, header, data, quarantined])]

/-- An event that leaves the record of a PROTECTED entry unfinished: nothing follows. -/
theorem record_stays {v : State} {i : Instr} (run : exec i s = .next (portFollow (controlFollow s v))) (same : v = u)
    (busy : ChannelsBusy s) (sends : NoSendDue s) (he : entryAt n s = some e) (guarded : e.cls = .guarded)
    (state : e.state = .recording) {f : RecordCtx → RecordCtx} (entries : u.entries = noted n f s.entries)
    (casc : u.casc = s.casc := by rfl) (ctrl : u.ckpt.ctrl = s.ckpt.ctrl := by rfl)
    (channel : u.down.channel = s.down.channel := by rfl) (up : u.up = s.up := by rfl) : exec i s = .next u := by
  subst same
  have unsettled := unsettled_changed (f := fun x => { x with ctx := x.ctx.map f }) he entries guarded (by simp [state])
  exact run.trans (congrArg _ (follow_unsettled busy sends casc ctrl channel up unsettled))

/-! ## Failures -/

/-- The context after the first failure of its record (R61, R140). -/
def firstFailure (w : RecWrite) (late : Nat) (c : RecordCtx) : RecordCtx :=
  { c with
    failed := true, quarantined := c.quarantined + late
    header := if w = .header then .failed else if c.header = .waiting then .withdrawn else c.header
    data := if w = .data then .failed else if c.data = .waiting then .withdrawn else c.data }

/-- The PRESERVE requests that are not record writes of entry n. -/
def othersReady (n : Fin 32) (d : Downstream) : List DownReq :=
  d.preserveReady.filter fun r => r.owner != .headerWrite n && r.owner != .dataWrite n

/-- The first failure with a LIVE checkpoint, its notice apart (R61, R140, R16). -/
def failedLive (n : Fin 32) (w : RecWrite) (late : Nat) (s : State) : State := { s with
  entries := noted n (firstFailure w late) s.entries
  down := { s.down with preserveReady := othersReady n s.down }
  ckpt := { s.ckpt with stack := s.ckpt.stack.map fun r => { r with state := .broken } }
  log := { s.log with stallClock := 0 }
  mgmt := { s.mgmt with latches := s.mgmt.latches ||| 0x004 } }

/-- The first failure with no LIVE checkpoint, its notice apart (R61, R140). -/
def failedBroken (n : Fin 32) (w : RecWrite) (late : Nat) (s : State) : State := { s with
  entries := noted n (firstFailure w late) s.entries
  down := { s.down with preserveReady := othersReady n s.down } }

/-- A later failure, its notice apart (R61). -/
def failedAgain (n : Fin 32) (w : RecWrite) (late : Nat) (s : State) : State := { s with
  entries := noted n (fun c => { setWriteState w .failed c with failed := true, quarantined := c.quarantined + late }) s.entries }

variable {timedOut : Bool}

theorem recordWriteBad_failedLive (ctx : ctxAt n s = some c) (good : c.failed = false) (live : ∃ r ∈ s.ckpt.stack, r.state = .live)
    (none : s.log.waitList = []) :
    recordWriteBad n w timedOut s = endRecord n (failedLive n w (if timedOut then 1 else 0) s) := by
  obtain ⟨r, hr, live⟩ := live
  exact recordWriteBad_live ctx good hr live none

theorem recordWriteBad_failedBroken (ctx : ctxAt n s = some c) (good : c.failed = false)
    (broken : ∀ r ∈ s.ckpt.stack, r.state = .broken) :
    recordWriteBad n w timedOut s = endRecord n (failedBroken n w (if timedOut then 1 else 0) s) :=
  recordWriteBad_broken ctx good broken

theorem recordWriteBad_failedAgain (ctx : ctxAt n s = some c) (failed : c.failed = true) :
    recordWriteBad n w timedOut s = endRecord n (failedAgain n w (if timedOut then 1 else 0) s) :=
  recordWriteBad_again ctx failed

/-- The first failure leaves the record open while the other write is outstanding or a write is quarantined. -/
theorem endRecord_firstFailure {late : Nat} (he : entryAt n s = some e) (hc : e.ctx = some c) (outcome : c.outcome = none)
    (entries : u.entries = noted n (firstFailure w late) s.entries)
    (open_ : otherWrite w c = .outstanding ∨ late ≠ 0) : endRecord n u = u := by
  refine endRecord_open (ctxAt_noted he hc entries) outcome (.inr ⟨rfl, ?_⟩)
  rcases open_ with outstanding | late
  · cases w
    · exact .inr (.inr (.inr (.inl (by simp_all [firstFailure, otherWrite]))))
    · exact .inr (.inl (by simp_all [firstFailure, otherWrite]))
  · exact .inr (.inr (.inr (.inr (by simp [firstFailure, late]))))

theorem otherWrite_setWriteState (st : WriteState) (c : RecordCtx) : otherWrite w (setWriteState w st c) = otherWrite w c := by
  cases w <;> rfl

theorem setWriteState_kept (st : WriteState) (c : RecordCtx) : (setWriteState w st c).outcome = c.outcome
    ∧ (setWriteState w st c).failed = c.failed ∧ (setWriteState w st c).quarantined = c.quarantined
    ∧ (setWriteState w st c).capture = c.capture := by
  cases w <;> exact ⟨rfl, rfl, rfl, rfl⟩

/-- A change of one write of a failed record leaves it open while the other waits, is outstanding, or a write is
quarantined. -/
theorem endRecord_failedOpen {f : RecordCtx → RecordCtx} (he : entryAt n s = some e) (hc : e.ctx = some c)
    (entries : u.entries = noted n f s.entries) (outcome : (f c).outcome = none) (failed : (f c).failed = true)
    (open_ : otherWrite w (f c) = .waiting ∨ otherWrite w (f c) = .outstanding ∨ (f c).quarantined ≠ 0) :
    endRecord n u = u := by
  refine endRecord_open (ctxAt_noted he hc entries) outcome (.inr ⟨failed, ?_⟩)
  cases w <;> simp only [otherWrite] at open_ <;> tauto

/-- A later failure leaves the record open under the same conditions. -/
theorem endRecord_failedAgain {late : Nat} (he : entryAt n s = some e) (hc : e.ctx = some c) (outcome : c.outcome = none)
    (open_ : otherWrite w c = .waiting ∨ otherWrite w c = .outstanding ∨ c.quarantined + late ≠ 0) :
    endRecord n (failedAgain n w late s) = failedAgain n w late s := by
  refine endRecord_failedOpen (w := w)
    (f := fun c => { setWriteState w .failed c with failed := true, quarantined := c.quarantined + late }) he hc rfl
    ((setWriteState_kept .failed c).1.trans outcome) rfl ?_
  have other : otherWrite w { setWriteState w .failed c with failed := true, quarantined := c.quarantined + late }
      = otherWrite w c := by cases w <;> rfl
  rw [other]
  exact open_

end

/-- A timeout's tag quarantined, counted and latched, its owner not yet told (R148). -/
def tagLost (t : Fin 32) (k : RwKind) (o : Owner) (s : State) : State := { s with
  down := { s.down with tags := s.down.tags.map fun u => if u.num = t then { u with state := .quarantined k o } else u }
  mgmt := { s.mgmt with
    counters := { s.mgmt.counters with downstreamTimeouts := satInc s.mgmt.counters.downstreamTimeouts }
    latches := s.mgmt.latches ||| 0x100 } }

theorem timeOutTag_eq (t : Fin 32) (r : DownReq) (s : State) :
    timeOutTag t r s = deliver r.owner .timeout (tagLost t (opKind r.op) r.owner s) := rfl

theorem timeOutTag_record {w : RecWrite} {n t : Fin 32} {op : LineOp} {line : Nat} (kind : opKind op = .write) (s : State) :
    timeOutTag t ⟨recordOwner w n, op, line⟩ s = recordWriteBad n w true (tagLost t .write (recordOwner w n) s) := by
  rw [timeOutTag_eq, kind, deliver_recordTimeout]

/-- Settles O47: acknowledgements, first and later failures, and freed notices, each of an open record. -/
theorem recordWrites : Obligations.RecordWrites := by
  intro s t n w op line m e c data h busy sends he hc guarded state outcome kind none own other requested freed note first
    lost others late
  have ctx : ctxAt n s = some c := by simp [ctxAt, he, hc]
  obtain ⟨ackOutcome, ackFailed, ackQuarantined, -⟩ := setWriteState_kept (w := w) .acknowledged c
  refine ⟨fun tag good => ⟨fun open_ => ?_, fun live => ⟨fun outstanding => ?_, fun limit => ?_⟩,
    fun broken => ⟨fun outstanding => ?_, fun limit => ?_⟩⟩, fun tag failed => ⟨fun open_ => ⟨?_, ?_⟩, fun limit => ?_⟩,
    fun st tag failed open_ => ?_⟩
  · refine record_stays (exec_response_matched h tag kind) ((deliver_recordOk w n data _).trans
      (endRecord_open (ctxAt_noted he hc rfl) (ackOutcome.trans outcome) (.inl ⟨ackFailed.trans good, ?_⟩)))
      busy sends he guarded state rfl
    cases w <;> rcases open_ with open_ | open_ <;> simp_all [setWriteState, other]
  · exact record_stays (exec_response_matched h tag kind) ((deliver_recordError w n _).trans ((recordWriteBad_failedLive
      (s := freeTheTag t s) ctx good live none).trans (endRecord_firstFailure he hc outcome rfl (.inl outstanding))))
      busy sends he guarded state rfl
  · refine record_stays (exec_timeout h tag limit) ((timeOutTag_record kind s).trans ((recordWriteBad_failedLive
      (s := tagLost t .write own s) ctx good live none).trans ((endRecord_firstFailure he hc outcome rfl
        (.inr one_ne_zero)).trans ?_))) busy sends he guarded state rfl
    simp only [failedLive, tagLost, latches_twice]
    rfl
  · exact record_stays (exec_response_matched h tag kind) ((deliver_recordError w n _).trans ((recordWriteBad_failedBroken
      (s := freeTheTag t s) ctx good broken).trans (endRecord_firstFailure he hc outcome rfl (.inl outstanding))))
      busy sends he guarded state rfl
  · exact record_stays (exec_timeout h tag limit) ((timeOutTag_record kind s).trans ((recordWriteBad_failedBroken
      (s := tagLost t .write own s) ctx good broken).trans (endRecord_firstFailure he hc outcome rfl (.inr one_ne_zero))))
      busy sends he guarded state rfl
  · refine record_stays (exec_response_matched h tag kind) ((deliver_recordOk w n data _).trans
      (endRecord_failedOpen (w := w) he hc rfl (ackOutcome.trans outcome) (ackFailed.trans failed) ?_)) busy sends he guarded
      state rfl
    rw [otherWrite_setWriteState, ackQuarantined]
    exact open_
  · refine record_stays (exec_response_matched h tag kind) ((deliver_recordError w n _).trans ((recordWriteBad_failedAgain
      (s := freeTheTag t s) ctx failed).trans
        ((endRecord_failedAgain (s := freeTheTag t s) (w := w) (late := 0) he hc outcome open_).trans ?_)))
      busy sends he guarded state rfl
    simp only [failedAgain, Nat.add_zero]
    have same (c : RecordCtx) : ({ setWriteState w .failed c with failed := true, quarantined := c.quarantined } : RecordCtx)
        = { setWriteState w .failed c with failed := true } := by cases w <;> rfl
    simp only [same]
    rfl
  · refine record_stays (exec_timeout h tag limit) ((timeOutTag_record kind s).trans ((recordWriteBad_failedAgain
      (s := tagLost t .write own s) ctx failed).trans
        (endRecord_failedAgain he hc outcome (.inr (.inr (Nat.succ_ne_zero _)))))) busy sends he guarded state rfl
  · refine record_stays (exec_response_late h tag) ((deliverFreed_record w n _).trans
      (endRecord_open (ctxAt_noted he hc rfl) outcome (.inr ⟨failed, ?_⟩))) busy sends he guarded state rfl
    rcases open_ with left | header | header | data | data
    · exact .inr (.inr (.inr (.inr (Nat.sub_ne_zero_of_lt left))))
    · exact .inl header
    · exact .inr (.inl header)
    · exact .inr (.inr (.inl data))
    · exact .inr (.inr (.inr (.inl data)))

end Sys2Proof.Machine
end

section
/-! The end of a record: the finish notice, the head advance, and the exit in the same step. -/

namespace Sys2Proof.Machine

-- One declaration at a time: elaborated in parallel, many quick ones exceed the memory limit.
set_option Elab.async false

/-! ## The notice -/

section
variable {s u v : State} {n : Fin 32} {e : Entry} {c : RecordCtx} {o : RecOutcome}

/-- The entries once entry n has the outcome of its record. -/
def outcomeNoted (n : Fin 32) (f : RecordCtx → RecordCtx) (o : RecOutcome) (es : List Entry) : List Entry :=
  es.map fun x => if x.num = n then
    { x with state := .commitWait, ctx := x.ctx.map fun c => { f c with outcome := some o } } else x

theorem finishRecord_eq (ctx : ctxAt n v = some c) (o : RecOutcome) : finishRecord n o v = exitIfReady n
    (advanceHead (v.log.finished.length + 1) { v with
      entries := outcomeNoted n id o v.entries
      log := { v.log with finished := v.log.finished ++ [(c.position, o)] } }) := by
  simp only [finishRecord, ctx, modCtx_modEntry v (fun e => { e with state := .commitWait })
    (fun c => { c with outcome := some o }) fun _ => rfl]
  simp only [State.onLog, List.length_append, List.length_singleton]
  rfl

/-- The notice after a change of the context. -/
theorem outcomeNoted_noted (f : RecordCtx → RecordCtx) (es : List Entry) :
    outcomeNoted n id o (noted n f es) = outcomeNoted n f o es := by
  rw [outcomeNoted, noted, List.map_map]
  refine List.map_congr_left fun x _ => ?_
  by_cases hx : x.num = n
  · simp [hx, Option.map_map, Function.comp_def]
  · simp [hx]

/-- The finished entry, in COMMIT_WAIT. -/
def finishedEntry (f : RecordCtx → RecordCtx) (o : RecOutcome) (e : Entry) : Entry :=
  { e with state := .commitWait, ctx := e.ctx.map fun c => { f c with outcome := some o } }

theorem entryAt_outcomeNoted (he : entryAt n s = some e) {f : RecordCtx → RecordCtx}
    (entries : u.entries = outcomeNoted n f o s.entries) : entryAt n u = some (finishedEntry f o e) :=
  entryAt_changed (f := finishedEntry f o) he entries fun _ => rfl

/-! ## The head -/

/-- With the first position unfinished, head stays (R33). -/
theorem advanceHead_stays (k : Nat) (first : ∀ x ∈ u.log.finished, x.1 ≠ u.log.head) : advanceHead k u = u := by
  have none : u.log.finished.find? (fun x => x.1 == u.log.head) = Option.none := by simpa using first
  cases k with
  | zero => rfl
  | succ k =>
    rw [advanceHead]
    split_ifs
    · rfl
    · simp only [none]

/-- What the passing of positions leaves alone. -/
theorem foldl_pass_kept (l : List RecOutcome) (s : State) : (l.foldl pass s).entries = s.entries ∧ (l.foldl pass s).casc = s.casc
    ∧ (l.foldl pass s).ckpt.ctrl = s.ckpt.ctrl ∧ (l.foldl pass s).down = s.down ∧ (l.foldl pass s).up = s.up
    ∧ (l.foldl pass s).pins = s.pins := by
  induction l generalizing s with
  | nil => exact ⟨rfl, rfl, rfl, rfl, rfl, rfl⟩
  | cons o l ih => exact ih (pass s o)

/-- A notice of each of several positions in a row, all distinct, are that many notices. -/
theorem length_of_notices {finished : List (Position × RecOutcome)} {h : Position} {after : List RecOutcome}
    (bound : after.length < 2 ^ 32 - 1)
    (all : ∀ j p, after[j]? = some p → (h + BitVec.ofNat 32 (j + 1), p) ∈ finished) : after.length ≤ finished.length := by
  have distinct : ((List.range after.length).map fun j => h + BitVec.ofNat 32 (j + 1)).Nodup := by
    refine (List.nodup_map_iff_inj_on List.nodup_range).mpr fun i hi j hj same => ?_
    have hi := List.mem_range.mp hi
    have hj := List.mem_range.mp hj
    have nat := congrArg BitVec.toNat (show BitVec.ofNat 32 (i + 1) = BitVec.ofNat 32 (j + 1) by simpa using same)
    simp only [BitVec.toNat_ofNat] at nat
    omega
  have within : ((List.range after.length).map fun j => h + BitVec.ofNat 32 (j + 1)) ⊆ finished.map Prod.fst := by
    intro x hx
    obtain ⟨j, hj, rfl⟩ := List.mem_map.mp hx
    exact List.mem_map.mpr ⟨_, all j _ (List.getElem?_eq_getElem (List.mem_range.mp hj)), rfl⟩
  simpa using (distinct.subperm within).length_le

theorem find?_of_nodup {finished : List (Position × RecOutcome)} (distinct : (finished.map Prod.fst).Nodup)
    {x : Position × RecOutcome} (mem : x ∈ finished) : finished.find? (fun y => y.1 == x.1) = some x := by
  induction finished with
  | nil => cases mem
  | cons y l ih =>
    rw [List.map_cons, List.nodup_cons] at distinct
    rcases List.mem_cons.mp mem with rfl | mem
    · simp
    · have other : (y.1 == x.1) = false := by
        rw [beq_eq_false_iff_ne]
        exact fun same => distinct.1 (same ▸ List.mem_map_of_mem mem)
      rw [List.find?_cons, other]
      exact ih distinct.2 mem

/-- Head passes the position it stands at, finished now, and every finished one in a row after it (R33). -/
theorem advanceHead_finished {after : List RecOutcome} (notice : u.log.finished = s.log.finished ++ [(s.log.head, o)])
    (head : u.log.head = s.log.head) (allocated : u.log.allocated = s.log.allocated)
    (room : after.length < (s.log.allocated - s.log.head).toNat) (distinct : (s.log.finished.map Prod.fst).Nodup)
    (first : ∀ x ∈ s.log.finished, x.1 ≠ s.log.head)
    (all : ∀ j p, after[j]? = some p → (s.log.head + BitVec.ofNat 32 (j + 1), p) ∈ s.log.finished)
    (stop : ∀ x ∈ s.log.finished, x.1 ≠ s.log.head + BitVec.ofNat 32 (after.length + 1)) :
    advanceHead (s.log.finished.length + 1) u = { after.foldl pass (pass u o) with log :=
      { (after.foldl pass (pass u o)).log with
        finished := s.log.finished.filter fun x => after.length < (x.1 - s.log.head).toNat } } := by
  have bound : after.length + 1 < 2 ^ 32 := lt_of_le_of_lt room (BitVec.isLt _)
  rw [advanceHead_consecutive (o :: after)]
  · have kept : (s.log.finished ++ [(s.log.head, o)]).filter (fun x => decide ((o :: after).length ≤ (x.1 - s.log.head).toNat))
        = s.log.finished.filter fun x => after.length < (x.1 - s.log.head).toNat := by
      rw [List.filter_append, List.filter_cons_of_neg (by rw [BitVec.sub_self]; simp), List.filter_nil, List.append_nil]
      rfl
    rw [notice, head, kept]
    rfl
  · simpa using length_of_notices (by omega) all
  · simpa [head, allocated] using room
  · intro j p hj
    rw [notice, head]
    cases j with
    | zero =>
      obtain rfl : o = p := by simpa using hj
      have none : s.log.finished.find? (fun x => x.1 == s.log.head) = Option.none := by simpa using first
      simp [List.find?_append, none]
    | succ j =>
      rw [List.find?_append, find?_of_nodup distinct (all j p (by simpa using hj))]
      rfl
  · intro x hx
    rw [notice] at hx
    rw [head, List.length_cons]
    rcases List.mem_append.mp hx with hx | hx
    · exact stop x hx
    · rw [List.mem_singleton.mp hx]
      exact (position_ne (Nat.succ_pos _) bound).symm

end

/-! ## The events that end a record -/

/-- A state that agrees with another but for tags, ready lists, breaks, clock, entries and management part. -/
structure Alike (s u : State) : Prop where
  casc : u.casc = s.casc
  ctrl : u.ckpt.ctrl = s.ckpt.ctrl
  channel : u.down.channel = s.down.channel
  up : u.up = s.up
  pins : u.pins = s.pins
  head : u.log.head = s.log.head
  allocated : u.log.allocated = s.log.allocated
  finished : u.log.finished = s.log.finished

/-- The event i ends the record of entry n with outcome o: the finish notice follows on u, with the context
changed by f. -/
structure Finishing (s u : State) (n : Fin 32) (c : RecordCtx) (i : Instr) (f : RecordCtx → RecordCtx) (o : RecOutcome) : Prop where
  run : exec i s = .next (portFollow (controlFollow s (finishRecord n o { u with entries := noted n f s.entries })))
  alike : Alike s u
  position : (f c).position = c.position

section
variable {s u : State} {t n : Fin 32} {w : RecWrite} {op : LineOp} {line : Nat} {m : Timer} {e : Entry} {c : RecordCtx}
  {i : Instr} {f : RecordCtx → RecordCtx} {o : RecOutcome} {data : LineData}

theorem setWriteState_position (st : WriteState) : (setWriteState w st c).position = c.position := by cases w <;> rfl

/-- An acknowledgement that ends its record (R60, R61). -/
theorem finishing_acknowledged (h : inReset s = false) (he : entryAt n s = some e) (hc : e.ctx = some c)
    (outcome : c.outcome = none) (kind : opKind op = .write)
    (tag : tagState t s.down = some (.outstanding ⟨recordOwner w n, op, line⟩ (some m)))
    (ends : (c.failed = false ∧ otherWrite w c = .acknowledged ∧ (∃ old, c.capture = .captured old) ∧ o = .written)
      ∨ (c.failed = false ∧ w = .header ∧ otherWrite w c = .absent ∧ c.capture = .poisoned ∧ o = .poisoned)
      ∨ (c.failed = true ∧ (otherWrite w c ≠ .waiting ∧ otherWrite w c ≠ .outstanding) ∧ c.quarantined = 0 ∧ o = .failed)) :
    Finishing s (freeTheTag t s) n c (.downstreamResponse t .write .ok data) (setWriteState w .acknowledged) o := by
  obtain ⟨outcome', failed', quarantined', capture'⟩ := setWriteState_kept (w := w) .acknowledged c
  have ctx : ctxAt n { freeTheTag t s with entries := noted n (setWriteState w .acknowledged) s.entries }
      = some (setWriteState w .acknowledged c) := ctxAt_noted he hc rfl
  refine ⟨(exec_response_matched h tag kind).trans (congrArg _ (congrArg portFollow (congrArg _ ((deliver_recordOk w n data _).trans
    ?_)))), by constructor <;> rfl, setWriteState_position _⟩
  rcases ends with ⟨good, other, ⟨old, captured⟩, rfl⟩ | ⟨good, rfl, other, poisoned, rfl⟩ | ⟨failed, other, none, rfl⟩
  · refine (endRecord_acknowledged ctx (outcome'.trans outcome) (failed'.trans good) ?_ ?_).trans ?_
    · cases w <;> simp_all [setWriteState, otherWrite]
    · cases w <;> simp_all [setWriteState, otherWrite]
    · rw [if_neg (by simp [capture', captured])]
  · refine (endRecord_acknowledged ctx (outcome'.trans outcome) (failed'.trans good) rfl (.inr other)).trans ?_
    rw [if_pos (capture'.trans poisoned)]
  · refine endRecord_failed ctx (outcome'.trans outcome) (failed'.trans failed) ?_ ?_ (quarantined'.trans none)
    · cases w <;> simp_all [setWriteState, otherWrite]
    · cases w <;> simp_all [setWriteState, otherWrite]

/-- A later failure that ends its record (R61). -/
theorem finishing_failedAgain (h : inReset s = false) (he : entryAt n s = some e) (hc : e.ctx = some c)
    (outcome : c.outcome = none) (kind : opKind op = .write)
    (tag : tagState t s.down = some (.outstanding ⟨recordOwner w n, op, line⟩ (some m))) (failed : c.failed = true)
    (other : otherWrite w c ≠ .waiting ∧ otherWrite w c ≠ .outstanding) (none : c.quarantined = 0) :
    Finishing s (freeTheTag t s) n c (.downstreamResponse t .write .error data)
      (fun c => { setWriteState w .failed c with failed := true }) .failed := by
  have same (c : RecordCtx) : ({ setWriteState w .failed c with failed := true, quarantined := c.quarantined + 0 } : RecordCtx)
      = { setWriteState w .failed c with failed := true } := by cases w <;> rfl
  have again : recordWriteBad n w false (freeTheTag t s) = endRecord n { freeTheTag t s with
      entries := noted n (fun c => { setWriteState w .failed c with failed := true }) s.entries } := by
    refine (recordWriteBad_failedAgain (s := freeTheTag t s) (by simp [ctxAt, show entryAt n (freeTheTag t s) = some e from he, hc])
      failed).trans ?_
    simp only [failedAgain, Bool.false_eq_true, if_false, same]
    rfl
  refine ⟨(exec_response_matched h tag kind).trans (congrArg _ (congrArg portFollow (congrArg _ ((deliver_recordError w n _).trans
    (again.trans (endRecord_failed (ctxAt_noted he hc rfl) ?_ rfl ?_ ?_ ?_)))))), by constructor <;> rfl, setWriteState_position _⟩
  all_goals cases w <;> simp_all [setWriteState, otherWrite]

/-- A first failure that ends its record (R61, R140). -/
theorem finishing_failedFirst (h : inReset s = false) (he : entryAt n s = some e) (hc : e.ctx = some c)
    (outcome : c.outcome = none) (kind : opKind op = .write) (waiting : s.log.waitList = [])
    (tag : tagState t s.down = some (.outstanding ⟨recordOwner w n, op, line⟩ (some m))) (good : c.failed = false)
    (other : otherWrite w c ≠ .outstanding) (none : c.quarantined = 0)
    (breaks : ((∃ r ∈ s.ckpt.stack, r.state = .live) ∧ u = { failedLive n w 0 (freeTheTag t s) with entries := s.entries })
      ∨ ((∀ r ∈ s.ckpt.stack, r.state = .broken) ∧ u = { failedBroken n w 0 (freeTheTag t s) with entries := s.entries })) :
    Finishing s u n c (.downstreamResponse t .write .error data) (firstFailure w 0) .failed := by
  have ctx : ctxAt n (freeTheTag t s) = some c := by simp [ctxAt, show entryAt n (freeTheTag t s) = some e from he, hc]
  have first : recordWriteBad n w false (freeTheTag t s) = endRecord n { u with entries := noted n (firstFailure w 0) s.entries } := by
    rcases breaks with ⟨live, rfl⟩ | ⟨broken, rfl⟩
    · exact recordWriteBad_failedLive ctx good live waiting
    · exact recordWriteBad_failedBroken ctx good broken
  have alike : Alike s u := by
    rcases breaks with ⟨-, rfl⟩ | ⟨-, rfl⟩ <;> constructor <;> rfl
  have withdrawn (x : WriteState) (hx : x ≠ .outstanding) : (if x = .waiting then WriteState.withdrawn else x) ≠ .waiting
      ∧ (if x = .waiting then WriteState.withdrawn else x) ≠ .outstanding := by
    split_ifs with waits
    · exact ⟨nofun, nofun⟩
    · exact ⟨waits, hx⟩
  have ended : ((firstFailure w 0 c).header ≠ .waiting ∧ (firstFailure w 0 c).header ≠ .outstanding)
      ∧ (firstFailure w 0 c).data ≠ .waiting ∧ (firstFailure w 0 c).data ≠ .outstanding := by
    cases w with
    | header => exact ⟨⟨nofun, nofun⟩, withdrawn c.data other⟩
    | data => exact ⟨withdrawn c.header other, nofun, nofun⟩
  exact ⟨(exec_response_matched h tag kind).trans (congrArg _ (congrArg portFollow (congrArg _ ((deliver_recordError w n _).trans
    (first.trans (endRecord_failed (ctxAt_noted he hc rfl) outcome rfl ended.1 ended.2 none)))))), alike, rfl⟩

/-- A freed notice that ends its record (R61, R149). -/
theorem finishing_freed {st : DownStatus} (h : inReset s = false) (he : entryAt n s = some e) (hc : e.ctx = some c)
    (outcome : c.outcome = none) (tag : tagState t s.down = some (.quarantined .write (recordOwner w n)))
    (failed : c.failed = true) (header : c.header ≠ .waiting ∧ c.header ≠ .outstanding)
    (data_ : c.data ≠ .waiting ∧ c.data ≠ .outstanding) (one : c.quarantined = 1) :
    Finishing s (freeTheTag t s) n c (.downstreamResponse t .write st data) (fun c => { c with quarantined := c.quarantined - 1 })
      .failed :=
  ⟨(exec_response_late h tag).trans (congrArg _ (congrArg portFollow (congrArg _ ((deliverFreed_record w n _).trans
    (endRecord_failed (ctxAt_noted he hc rfl) outcome failed header data_ (by simp [one])))))), by constructor <;> rfl, rfl⟩

/-- A record that ends above head leaves head where it is: the entry waits in COMMIT_WAIT (R32, R33). -/
theorem finishing_aboveHead (fin : Finishing s u n c i f o) (busy : ChannelsBusy s) (sends : NoSendDue s)
    (he : entryAt n s = some e) (hc : e.ctx = some c) (guarded : e.cls = .guarded) (above : c.position ≠ s.log.head)
    (first : ∀ x ∈ s.log.finished, x.1 ≠ s.log.head)
    (below : (c.position - s.log.head).toNat < (s.log.allocated - s.log.head).toNat) :
    exec i s = .next { u with
      entries := outcomeNoted n f o s.entries
      log := { u.log with finished := s.log.finished ++ [(c.position, o)] } } := by
  obtain ⟨run, alike, position⟩ := fin
  let noticed : State := { u with
    entries := outcomeNoted n f o s.entries
    log := { u.log with finished := s.log.finished ++ [(c.position, o)] } }
  have he' : entryAt n noticed = some (finishedEntry f o e) := entryAt_outcomeNoted he rfl
  have ctx : (finishedEntry f o e).ctx = some { f c with outcome := some o } := by simp [finishedEntry, hc]
  have same : finishRecord n o { u with entries := noted n f s.entries } = noticed := by
    rw [finishRecord_eq (ctxAt_noted he hc rfl)]
    simp only [outcomeNoted_noted, position, alike.finished]
    rw [advanceHead_stays]
    · refine exitIfReady_notReady (u := noticed) ?_
      rw [← Bool.not_eq_true, mayExit_entry he' ctx]
      rintro ⟨-, passed, -⟩
      simp only [noticed, alike.head, alike.allocated, position] at passed
      omega
    · simp only [alike.head, List.mem_append, List.mem_singleton]
      rintro x (hx | rfl)
      · exact first x hx
      · exact above
  rw [run, same]
  refine congrArg _ (follow_unsettled busy sends alike.casc alike.ctrl alike.channel alike.up ?_)
  exact unsettled_changed (f := finishedEntry f o) he rfl guarded nofun

/-- A record that ends at head lets head pass, and the entry's exit follows (R33, R62, log 17). -/
theorem finishing_atHead {after : List RecOutcome} (fin : Finishing s u n c i f o) (h : inReset s = false)
    (busy : ChannelsBusy s) (sends : NoSendDue s) (he : entryAt n s = some e) (hc : e.ctx = some c)
    (guarded : e.cls = .guarded) (at_ : c.position = s.log.head) (room : after.length < (s.log.allocated - s.log.head).toNat)
    (distinct : (s.log.finished.map Prod.fst).Nodup) (first : ∀ x ∈ s.log.finished, x.1 ≠ s.log.head)
    (all : ∀ j p, after[j]? = some p → (s.log.head + BitVec.ofNat 32 (j + 1), p) ∈ s.log.finished)
    (stop : ∀ x ∈ s.log.finished, x.1 ≠ s.log.head + BitVec.ofNat 32 (after.length + 1)) :
    let advanced := after.foldl pass (pass { u with entries := outcomeNoted n f o s.entries } o)
    exec i s = exec (.commitWaitExit n) { advanced with log := { advanced.log with
      finished := s.log.finished.filter fun x => after.length < (x.1 - s.log.head).toNat } } := by
  intro advanced
  obtain ⟨run, alike, position⟩ := fin
  have finish : finishRecord n o { u with entries := noted n f s.entries } = exitIfReady n { advanced with
      log := { advanced.log with finished := s.log.finished.filter fun x => after.length < (x.1 - s.log.head).toNat } } := by
    rw [finishRecord_eq (ctxAt_noted he hc rfl)]
    simp only [outcomeNoted_noted, position, alike.finished, at_]
    rw [advanceHead_finished (s := s) rfl (by exact alike.head) (by exact alike.allocated) room distinct first all stop]
    rfl
  obtain ⟨entries, casc, ctrl, down, up, pins⟩ :=
    foldl_pass_kept after (pass { u with entries := outcomeNoted n f o s.entries } o)
  rw [run, finish]
  refine exit_follow (e := finishedEntry f o e) ?_ busy sends (casc.trans alike.casc) (ctrl.trans alike.ctrl)
    ((congrArg Downstream.channel down).trans alike.channel) (up.trans alike.up) (entryAt_outcomeNoted he entries) guarded nofun
  rw [inReset, show (({ advanced with log := _ } : State).pins) = s.pins from pins.trans alike.pins]
  exact h

end

/-- Settles O48: each event that ends a record, and what its notice makes of head. -/
theorem recordFinishes : Obligations.RecordFinishes := by
  intro s u t n w op line m e c i f o data h busy sends he hc guarded state outcome kind none own other requested freed others
    acknowledged ended events noticed pass
  have fin : Finishing s u n c i f o := by
    rcases events with ⟨⟨rfl, tag, rfl, rfl⟩, good, ack, captured, rfl⟩
      | ⟨⟨rfl, tag, rfl, rfl⟩, good, header, absent, poisoned, rfl⟩
      | ⟨⟨rfl, tag, rfl, rfl⟩, failed, over_, zero, rfl⟩ | ⟨rfl, tag, failed, over_, zero, rfl, rfl, rfl⟩
      | ⟨rfl, tag, good, over_, zero, rfl, breaks, rfl⟩ | ⟨st, rfl, tag, failed, header, data_, one, rfl, rfl, rfl⟩
    · exact finishing_acknowledged h he hc outcome kind tag (.inl ⟨good, ack, captured, rfl⟩)
    · exact finishing_acknowledged h he hc outcome kind tag (.inr (.inl ⟨good, header, absent, poisoned, rfl⟩))
    · exact finishing_acknowledged h he hc outcome kind tag (.inr (.inr ⟨failed, over_, zero, rfl⟩))
    · exact finishing_failedAgain h he hc outcome kind tag failed over_ zero
    · exact finishing_failedFirst h he hc outcome kind none tag good over_ zero breaks
    · exact finishing_freed h he hc outcome tag failed header data_ one
  refine ⟨fun above first below => ?_, fun after at_ room distinct first all stop => ?_⟩
  · exact finishing_aboveHead (u := u) fin busy sends he hc guarded above first below
  · exact finishing_atHead (u := u) fin h busy sends he hc guarded at_ room distinct first all stop

end Sys2Proof.Machine
end

section
/-! The rollback walk: its steps, its ends, and what is reported of them. -/

namespace Sys2Proof.Machine

-- One declaration at a time: elaborated in parallel, many quick ones exceed the memory limit.
set_option Elab.async false

/-! ## Sends and ends of an agreement after GO -/

section
variable {s : State} {a : Agreement} {o : DoneOutcome}

/-- After GO a follower has DONE to send, if anything (R170). -/
theorem cascadeFollow_followerAfterGo (follower : s.casc.role = .follower) (ha : s.casc.agreement = some a)
    (go : a.go = true) : cascadeFollow s = doneSend s := by
  have ready : readyOk s = s := by simp [readyOk, ha, go]
  have ended : agreementEnd s = s := by
    unfold agreementEnd
    simp only [ha]
    split <;> simp [follower]
  rw [cascadeFollow, leaderGo_follower (by simp [follower]), ready, ended]

/-- After GO a leader has its agreement to end, if anything (R164). -/
theorem cascadeFollow_leaderAfterGo (leader : s.casc.role = .leader) (ha : s.casc.agreement = some a) (go : a.go = true) :
    cascadeFollow s = agreementEnd s := by
  rw [cascadeFollow_leader leader, show leaderGo s = s by simp [leaderGo, ha, go]]

/-- A follower sends DONE with the worse of the outcomes (R170). -/
theorem doneSend_sends (follower : s.casc.role = .follower) (ha : s.casc.agreement = some a) (go : a.go = true)
    (own : a.own = some o) (known : s.casc.last = true ∨ a.belowDone.isSome = true) (room : s.casc.upList.length < 4) :
    doneSend s = { s with casc := { s.casc with
      agreement := none, upList := s.casc.upList ++ [.done a.id (worse o (a.belowDone.getD o))] } } := by
  simp only [doneSend, ha, own]
  rw [if_pos ⟨follower, go, known⟩, produce_up room]
  rfl

theorem doneSend_waits (ha : s.casc.agreement = some a) (own : a.own = some o) (last : s.casc.last = false)
    (below : a.belowDone = none) : doneSend s = s := by
  simp only [doneSend, ha, own]
  rw [if_neg (by simp [last, below])]

/-- A leader's agreement ends with the worse of the outcomes (R164). -/
theorem agreementEnd_ends {b : DoneOutcome} (leader : s.casc.role = .leader) (ha : s.casc.agreement = some a)
    (go : a.go = true) (own : a.own = some o) (below : a.belowDone = some b) : agreementEnd s =
      dropAgreement (latch (endCause a.goal) (writeResult (agreementResult a (worse o b)) s)) := by
  simp only [agreementEnd, ha, own, below]
  rw [if_pos ⟨leader, go⟩]

theorem agreementEnd_waits (ha : s.casc.agreement = some a) (below : a.belowDone = none) : agreementEnd s = s := by
  unfold agreementEnd
  simp only [ha, below]
  split <;> simp_all

theorem worse_self (o : DoneOutcome) : worse o o = o := by simp [worse]

end

/-! ## The report of a walk's end -/

section
variable {s u : State} {w : Walk} {o : DoneOutcome} {a : Agreement}

/-- The management part once a walk's end is reported (R83, R214). -/
def walkResult (src : Source) (o : DoneOutcome) (target : CkptNumber) (applied : Nat) (id : Option OpId) (u : State) : Mgmt :=
  { u.mgmt with
    result := some ⟨.rollback, src, resultOutcome o, some target, applied, u.restore.unrestored.length + u.restore.overflow, id⟩
    latches := u.mgmt.latches ||| 0x002 }

/-- The agreement once the walk of this unit has ended. -/
def walkNoted (o : DoneOutcome) (applied : Nat) (u : State) (a : Agreement) : Cascade :=
  { u.casc with
    agreement := some { a with
      own := some o, applied := applied, unrestored := u.restore.unrestored.length + u.restore.overflow } }

theorem reportWalk_follower (follower : u.casc.role = .follower) (ha : u.casc.agreement = some a) : reportWalk w o u = { u with
    casc := walkNoted o w.applied u a, mgmt := walkResult .cascade o w.target w.applied (some a.id) u } := by
  unfold reportWalk
  simp only [modAgreement_some ha]
  rw [if_neg (by simp [follower])]
  simp [rollbackSource, follower, cascadeIdOf, walkNoted, walkResult, latch, writeResult, State.onMgmt, rollbackResult,
    linesUnrestored]
  rfl

theorem reportWalk_leader (leader : u.casc.role = .leader) (ha : u.casc.agreement = some a) :
    reportWalk w o u = { u with casc := walkNoted o w.applied u a } := by
  unfold reportWalk
  simp only [modAgreement_some ha]
  rw [if_pos (by exact leader)]
  rfl

/-- What a walk's end leads to in the same step, by role (R83, R84, R163, R164, R170). -/
theorem walk_reported (idle : ∀ g src, u.ckpt.ctrl ≠ .settling g src) (flags : NoFlags u) (busy : ChannelsBusy u) :
    (u.casc.role = .solo → u.casc.agreement = none →
      portFollow (controlFollow s (reportWalk w o u)) = { u with mgmt := walkResult .command o w.target w.applied none u })
    ∧ ∀ a, u.casc.agreement = some a → a.go = true →
      (u.casc.role = .follower →
        let sent (x : DoneOutcome) : Cascade := { u.casc with
          agreement := none, upList := u.casc.upList ++ [.done a.id x] }
        let mgmt := walkResult .cascade o w.target w.applied (some a.id) u
        (u.casc.last = false → a.belowDone = none →
          portFollow (controlFollow s (reportWalk w o u)) = { u with casc := walkNoted o w.applied u a, mgmt := mgmt })
        ∧ (u.casc.last = true → a.belowDone = none → u.casc.upList.length < 4 →
          portFollow (controlFollow s (reportWalk w o u)) = { u with casc := sent o, mgmt := mgmt })
        ∧ (∀ b, a.belowDone = some b → u.casc.upList.length < 4 →
          portFollow (controlFollow s (reportWalk w o u)) = { u with casc := sent (worse o b), mgmt := mgmt }))
      ∧ (u.casc.role = .leader →
        (a.belowDone = none → portFollow (controlFollow s (reportWalk w o u)) = { u with casc := walkNoted o w.applied u a })
        ∧ (∀ b k', a.belowDone = some b → a.goal = .rollback k' →
          portFollow (controlFollow s (reportWalk w o u)) = { u with
            casc := { u.casc with agreement := none }
            mgmt := walkResult a.source (worse o b) k' w.applied (some a.id) u })) := by
  have follows {v x : State} (ctrl : v.ckpt = u.ckpt) (sends : cascadeFollow v = x) (ckpt : x.ckpt = u.ckpt) (down : x.down = u.down)
      (up : x.up = u.up) : portFollow (controlFollow s v) = x := by
    have due : dueSource x = none := dueSource_noFlags (by rw [NoFlags, ckpt]; exact flags)
    have settles : settle v = v := settle_elsewhere (by rw [ctrl]; exact idle)
    rw [controlFollow, settles, sends, triggerCheck_idle (.inr due), ite_self, portFollow_busy]
    rw [ChannelsBusy, down, up]
    exact busy
  refine ⟨fun solo free => ?_, fun a ha go => ⟨fun follower => ?_, fun leader => ?_⟩⟩
  · rw [reportWalk_solo solo free]
    exact follows rfl (cascadeFollow_none free) rfl rfl rfl
  · rw [reportWalk_follower follower ha]
    refine ⟨fun last below => ?_, fun last below room => ?_, fun b below room => ?_⟩
    · refine follows rfl ?_ rfl rfl rfl
      rw [cascadeFollow_followerAfterGo (by exact follower) rfl (by exact go), doneSend_waits rfl rfl (by exact last) (by exact below)]
    · refine follows rfl ?_ rfl rfl rfl
      rw [cascadeFollow_followerAfterGo (by exact follower) rfl (by exact go),
        doneSend_sends (by exact follower) rfl (by exact go) rfl (.inl (by exact last)) (by exact room)]
      simp [walkNoted, below, worse_self]
    · refine follows rfl ?_ rfl rfl rfl
      rw [cascadeFollow_followerAfterGo (by exact follower) rfl (by exact go),
        doneSend_sends (by exact follower) rfl (by exact go) rfl (.inr (by simp [below])) (by exact room)]
      simp [walkNoted, below]
  · rw [reportWalk_leader leader ha]
    refine ⟨fun below => ?_, fun b k' below goal => ?_⟩
    · refine follows rfl ?_ rfl rfl rfl
      rw [cascadeFollow_leaderAfterGo (by exact leader) rfl (by exact go), agreementEnd_waits rfl (by exact below)]
    · refine follows rfl ?_ rfl rfl rfl
      rw [cascadeFollow_leaderAfterGo (by exact leader) rfl (by exact go),
        agreementEnd_ends (by exact leader) rfl (by exact go) rfl (by exact below)]
      simp only [agreementResult, goal]
      rfl

end

/-! ## The steps of a walk -/

section
variable {s u v : State} {w : Walk} {r : CkptRecord} {h d : LineData}

/-- The walk truncated to its target (R83, R24, R43). -/
def walkTruncated (target : CkptNumber) (r : CkptRecord) (s : State) : State := { s with
  restore := { s.restore with walk := none }
  ckpt := { s.ckpt with
    stack := s.ckpt.stack.takeWhile (fun x => x.number != target) ++ [{ r with records := 0 }]
    generation := s.ckpt.generation + 1, fence := false, ctrl := .idle }
  filter := if s.ckpt.generation = 65535 then [] else s.filter
  log := { s.log with head := r.mark, allocated := r.mark } }

/-- The walk ended by a corrupt record (R84, R16). -/
def walkCorrupt (s : State) : State := { s with
  restore := { s.restore with walk := none }
  ckpt := { s.ckpt with
    ctrl := .held .corrupt
    stack := s.ckpt.stack.map fun r => { r with state := .broken } }
  log := { s.log with stallClock := 0 }
  mgmt := { s.mgmt with latches := s.mgmt.latches ||| 0x004 } }

/-- The outcome of a walk that reached its floor (R82). -/
def floorOutcome (r : Restore) : DoneOutcome := if r.unrestored = [] ∧ r.overflow = 0 then .done else .partly

theorem finishWalk_floor (going : w.stopped = false) (found : findCkpt w.target s = some r) :
    finishWalk w s = reportWalk w (floorOutcome s.restore) (walkTruncated w.target r s) := by
  have outcome : walkOutcome w (s.onRestore fun r => { r with walk := none }) = floorOutcome s.restore := by
    simp [walkOutcome, going, floorOutcome]
  have truncated : standDown (truncateTo w.target (s.onRestore fun r => { r with walk := none })) = walkTruncated w.target r s :=
    standDown_truncateTo found
  simp only [finishWalk, outcome, truncated]
  rw [floorOutcome]
  split_ifs <;> rfl

theorem finishWalk_corrupt (stopped : w.stopped = true) (live : ∃ r ∈ s.ckpt.stack, r.state = .live)
    (none : s.log.waitList = []) (flags : NoFlags s) : finishWalk w s = reportWalk w .corrupt (walkCorrupt s) := by
  have outcome : walkOutcome w (s.onRestore fun r => { r with walk := Option.none }) = .corrupt := by simp [walkOutcome, stopped]
  obtain ⟨r, hr, live⟩ := live
  have broken := breakAll_live (s := s.onRestore fun r => { r with walk := Option.none }) hr live none
  have held : enterHeld .corrupt (breakAll (s.onRestore fun r => { r with walk := Option.none })) = walkCorrupt s := by
    rw [broken, enterHeld, dueSource_noFlags (by exact flags)]
    simp only [walkCorrupt, ← none]
    rfl
  simp only [finishWalk, outcome, held]

/-- The walk takes the next lower position (R80). -/
theorem moveOn_below (going : w.stopped = false) (above : w.position ≠ w.floor) : moveOn w s = { s with
    restore := { s.restore with
      walk := some { w with position := w.position - 1, stage := .header, header := none, oldData := none } }
    down := { s.down with restoreReady := s.down.restoreReady ++
      [⟨.walkHeader, .read, s.log.base + 2 * ((w.position - 1).toNat % s.log.capacity)⟩] } } := by
  rw [moveOn, if_neg (by simp [going, above])]
  rfl

theorem moveOn_ends (last : w.stopped = true ∨ w.position = w.floor) : moveOn w s = finishWalk w s := by
  rw [moveOn, if_pos (by simpa using last)]

theorem onWalk_some (hw : s.restore.walk = some w) (f : Walk → State → State) : onWalk f s = f w s := by
  simp only [onWalk, hw]

/-! What the end of each request of the walk does to it (R76, R78, R80). -/

section
variable (hw : s.restore.walk = some w)
include hw

theorem deliver_headerOk (d : LineData) : deliver .walkHeader (.ok d) s = walkHeaderOk w d s := onWalk_some hw _

theorem deliver_dataOk (d : LineData) : deliver .walkData (.ok d) s = walkDataOk w d s := onWalk_some hw _

theorem deliver_writeOk (d : LineData) : deliver .walkWrite (.ok d) s = recordDone { w with applied := w.applied + 1 } s :=
  onWalk_some hw _

theorem deliver_writeError : deliver .walkWrite .error s = recordDone w (failLine w s) :=
  onWalk_some hw fun w s => recordDone w (failLine w s)

theorem deliver_writeTimeout : deliver .walkWrite .timeout s = drainWalk w (failLine w s) :=
  onWalk_some hw fun w s => drainWalk w (failLine w s)

theorem deliver_readError {o : Owner} (read : o = .walkHeader ∨ o = .walkData) :
    deliver o .error s = recordDone { w with stopped := true } s := by
  rcases read with rfl | rfl
  · exact onWalk_some hw _
  · exact onWalk_some hw _

theorem deliver_readTimeout {o : Owner} (read : o = .walkHeader ∨ o = .walkData) :
    deliver o .timeout s = drainWalk { w with stopped := true } s := by
  rcases read with rfl | rfl
  · exact onWalk_some hw _
  · exact onWalk_some hw _

theorem walkFreed_drain (drain : w.stage = .drain) : walkFreed s = moveOn { w with quarantined := false } s := by
  simp only [walkFreed, hw, drain, if_true]

end

theorem failLine_header (header : w.header = some h) : failLine w s = addUnrestored (headerAddr h) s := by
  simp only [failLine, header]

theorem headerPoisoned_iff : headerPoisoned h = true ↔ headerFlags h = 1 := by simp [headerPoisoned]

theorem walkHeaderOk_good (good : headerCorrupt h w.position s.cls = false) (flags : headerFlags h = 0) :
    walkHeaderOk w h s = { s with
      restore := { s.restore with walk := some { w with header := some h, stage := .data } }
      down := { s.down with restoreReady := s.down.restoreReady ++
        [⟨.walkData, .read, s.log.base + 2 * (w.position.toNat % s.log.capacity) + 1⟩] } } := by
  rw [walkHeaderOk, if_neg (by simp [good]), if_neg (by simp [headerPoisoned, flags])]
  rfl

theorem walkHeaderOk_poisoned (good : headerCorrupt h w.position s.cls = false) (flags : headerFlags h = 1) :
    walkHeaderOk w h s = recordDone { w with header := some h } (addUnrestored (headerAddr h) s) := by
  rw [walkHeaderOk, if_neg (by simp [good]), if_pos (headerPoisoned_iff.mpr flags)]

theorem walkDataOk_agrees (header : w.header = some h) (check : crc32 (headerTopOf h ++ d) = headerCheck h) :
    walkDataOk w d s = { s with
      restore := { s.restore with walk := some { w with oldData := some d, stage := .write } }
      down := { s.down with restoreReady := s.down.restoreReady ++
        [⟨.walkWrite, .write (BitVec.allOnes 64) d, headerAddr h⟩] } } := by
  simp only [walkDataOk, header]
  rw [if_pos (by exact check)]
  rfl

theorem walkDataOk_disagrees (header : w.header = some h) (check : crc32 (headerTopOf h ++ d) ≠ headerCheck h) :
    walkDataOk w d s = recordDone { w with stopped := true } s := by
  simp only [walkDataOk, header]
  rw [if_neg (by exact check)]

/-- The line of a record on the unrestored list (R69). -/
theorem addUnrestored_partly (line : Nat) : floorOutcome (addUnrestored line s).restore = .partly := by
  rw [addUnrestored_fields, floorOutcome, if_neg]
  rintro ⟨empty, -⟩
  by_cases room : s.restore.unrestored.length < 16 ∧ line ∉ s.restore.unrestored
  · simp [room] at empty
  · simp only [if_neg room] at empty
    simp [empty] at room

/-- A walk that goes on: nothing follows its step. -/
theorem walk_continues {k : CkptNumber} {i : Instr} (run : exec i s = .next (portFollow (controlFollow s v))) (same : v = u)
    (free : s.casc.agreement = none) (busy : ChannelsBusy s) (ctrl : u.ckpt.ctrl = .restoring k)
    (casc : u.casc = s.casc := by rfl) (channel : u.down.channel = s.down.channel := by rfl) (up : u.up = s.up := by rfl) :
    exec i s = .next u := by
  subst same
  rw [run, follow_still]
  case settles => exact settle_elsewhere (by simp [ctrl])
  case follow => exact cascadeFollow_none (by rw [casc]; exact free)
  case check => exact .inr (.inl (longOp_of_ctrl (by simp [ctrl])))
  case ports => exact portFollow_busy (by rw [ChannelsBusy, channel, up]; exact busy)

end

/-- Settles O52: each event that ends a walk, and what its report leads to. -/
theorem walkEnds : Obligations.WalkEnds := by
  intro s u w t c o applied k r h data reset hw ctrl found live none busy flags freed missed truncated corrupt request outcome
    atFloor events lines reported
  let ends (i : Instr) (o : DoneOutcome) (applied : Nat) (u : State) : Prop := ∃ w' : Walk, w'.target = w.target
    ∧ w'.applied = applied ∧ exec i s = .next (portFollow (controlFollow s (reportWalk w' o u)))
  have follows {x y : State} (same : x = y) : (Host.Outcome.next (portFollow (controlFollow s x)) : Host.Outcome State Fault Refusal)
      = .next (portFollow (controlFollow s y)) := by rw [same]
  have floor {i : Instr} {w' : Walk} {x : Restore} (run : exec i s = .next (portFollow (controlFollow s
      (moveOn w' { s with restore := x, down := freed })))) (target : w'.target = w.target) (going : w'.stopped = false)
      (at_ : w'.position = w'.floor) : ends i (floorOutcome x) w'.applied (truncated x) := by
    refine ⟨w', target, rfl, run.trans ?_⟩
    rw [moveOn_ends (.inr at_), finishWalk_floor (r := r) going (by rw [target]; exact found), target]
    rfl
  have corrupted {i : Instr} {w' : Walk} (run : exec i s = .next (portFollow (controlFollow s (moveOn w' { s with down := freed }))))
      (target : w'.target = w.target) (stopped : w'.stopped = true) : ends i .corrupt w'.applied corrupt := by
    refine ⟨w', target, rfl, run.trans ?_⟩
    rw [moveOn_ends (.inl stopped), finishWalk_corrupt (s := { s with down := freed }) stopped
      ⟨r, List.mem_of_find?_eq_some found, live⟩ none (by exact flags)]
    rfl
  have missing : addUnrestored (headerAddr h) { s with down := freed } = { s with restore := missed, down := freed } :=
    addUnrestored_fields _ _
  have partly : floorOutcome missed = .partly := by
    rw [← addUnrestored_partly (s := s) (headerAddr h), addUnrestored_fields]
  have hw' : ({ s with down := freed } : State).restore.walk = some w := hw
  have run : ends c o applied u := by
    rcases events with ⟨op, rfl, kind, ⟨line, m, tag⟩, ⟨going, at_⟩, rfl, rfl, rfl⟩
      | ⟨op, rfl, kind, ⟨line, m, tag⟩, header, ⟨going, at_⟩, rfl, rfl, rfl⟩
      | ⟨rfl, ⟨line, m, tag⟩, good, one, ⟨going, at_⟩, rfl, rfl, rfl⟩
      | ⟨st, rfl, drain, ⟨going, at_⟩, tag, rfl, rfl, rfl⟩
      | ⟨rfl, tag, rfl, rfl, rfl⟩ | ⟨st, rfl, drain, stopped, tag, rfl, rfl, rfl⟩
    · exact floor (w' := { w with applied := w.applied + 1, stage := .next }) (x := s.restore)
        ((exec_response_matched reset tag kind).trans (follows (deliver_writeOk hw' 0))) rfl going at_
    · rw [← partly]
      refine floor (w' := { w with stage := .next }) (x := missed) ((exec_response_matched reset tag kind).trans
        (follows ((deliver_writeError hw').trans ?_))) rfl going at_
      rw [failLine_header header, missing]
      rfl
    · rw [← partly]
      refine floor (w' := { w with header := some h, stage := .next }) (x := missed) ((exec_response_matched reset tag rfl).trans
        (follows ((deliver_headerOk hw' h).trans
          ((walkHeaderOk_poisoned (s := { s with down := freed }) good one).trans ?_)))) rfl going at_
      rw [missing]
      rfl
    · exact floor (w' := { w with quarantined := false }) (x := s.restore) ((exec_response_late reset tag).trans
        (follows (walkFreed_drain hw' drain))) rfl going at_
    · rcases tag with ⟨line, m, tag⟩ | ⟨line, m, tag⟩
      · exact corrupted (w' := { w with stopped := true, stage := .next }) ((exec_response_matched reset tag rfl).trans
          (follows (deliver_readError hw' (.inl rfl)))) rfl rfl
      · exact corrupted (w' := { w with stopped := true, stage := .next }) ((exec_response_matched reset tag rfl).trans
          (follows (deliver_readError hw' (.inr rfl)))) rfl rfl
    · rcases tag with tag | tag
      · exact corrupted (w' := { w with quarantined := false }) ((exec_response_late reset tag).trans
          (follows (walkFreed_drain hw' drain))) rfl stopped
      · exact corrupted (w' := { w with quarantined := false }) ((exec_response_late reset tag).trans
          (follows (walkFreed_drain hw' drain))) rfl stopped
  have shape : u.casc = s.casc ∧ (∀ g src, u.ckpt.ctrl ≠ .settling g src) ∧ NoFlags u ∧ ChannelsBusy u := by
    have either : (∃ x, u = truncated x) ∨ u = corrupt := by
      rcases events with ⟨_, _, _, _, _, rfl, _⟩ | ⟨_, _, _, _, _, _, rfl, _⟩ | ⟨_, _, _, _, _, rfl, _⟩
        | ⟨_, _, _, _, _, rfl, _⟩ | ⟨_, _, rfl, _⟩ | ⟨_, _, _, _, _, rfl, _⟩
      · exact .inl ⟨_, rfl⟩
      · exact .inl ⟨_, rfl⟩
      · exact .inl ⟨_, rfl⟩
      · exact .inl ⟨_, rfl⟩
      · exact .inr rfl
      · exact .inr rfl
    rcases either with ⟨x, rfl⟩ | rfl
    · exact ⟨rfl, nofun, flags, busy⟩
    · exact ⟨rfl, nofun, flags, busy⟩
  obtain ⟨w', target, rfl, run⟩ := run
  obtain ⟨casc, idle, flags', busy'⟩ := shape
  obtain ⟨solo, chain⟩ := walk_reported (s := s) (w := w') (o := o) idle flags' busy'
  simp only [walkNoted, walkResult, target] at solo chain
  rw [← casc, run]
  refine ⟨fun role free => congrArg _ (solo role free), fun a ha go own => ?_⟩
  obtain ⟨follower, leader⟩ := chain a ha go
  refine ⟨fun role => ?_, fun role => ?_⟩
  · obtain ⟨waits, last, known⟩ := follower role
    exact ⟨fun l b => congrArg _ (waits l b), fun l b room => congrArg _ (last l b room),
      fun b below room => congrArg _ (known b below room)⟩
  · obtain ⟨waits, ended⟩ := leader role
    exact ⟨fun below => congrArg _ (waits below), fun b k' below goal => congrArg _ (ended b k' below goal)⟩

end Sys2Proof.Machine
end

section
/-! The reads and writes of a rollback walk. -/

namespace Sys2Proof.Machine

-- One declaration at a time: elaborated in parallel, many quick ones exceed the memory limit.
set_option Elab.async false

section
variable {s : State} {w' : Walk} {r : CkptRecord} {i : Instr} {freed : Downstream}

/-- A solo walk that meets a corrupt record, or a failed read, ends CORRUPT (R77, R84, R16). -/
theorem soloWalk_corrupt (run : exec i s = .next (portFollow (controlFollow s (moveOn w' { s with down := freed }))))
    (stopped : w'.stopped = true) (live : ∃ r ∈ s.ckpt.stack, r.state = .live) (none : s.log.waitList = [])
    (flags : NoFlags s) (busy : ChannelsBusy s) (channel : freed.channel = s.down.channel) (solo : s.casc.role = .solo)
    (free : s.casc.agreement = Option.none) : exec i s = .next { s with
      down := freed
      restore := { s.restore with walk := Option.none }
      ckpt := { s.ckpt with
        ctrl := .held .corrupt
        stack := s.ckpt.stack.map fun r => { r with state := .broken } }
      log := { s.log with stallClock := 0 }
      mgmt := { s.mgmt with
        result := some ⟨.rollback, .command, .corrupt, some w'.target, w'.applied,
          s.restore.unrestored.length + s.restore.overflow, Option.none⟩
        latches := s.mgmt.latches ||| 0x006 } } := by
  have busy' : ChannelsBusy (walkCorrupt { s with down := freed }) := ⟨by rw [← busy.1]; exact congrArg _ channel, busy.2⟩
  rw [run, moveOn_ends (.inl stopped),
    finishWalk_corrupt (s := { s with down := freed }) stopped live none (by exact flags),
    (walk_reported (u := walkCorrupt { s with down := freed }) nofun (by exact flags) busy').1 solo free]
  simp only [walkCorrupt, walkResult, latches_twice]
  rfl

/-- A solo walk at its floor with no line unrestored ends DONE (R82, R83). -/
theorem soloWalk_done (run : exec i s = .next (portFollow (controlFollow s (moveOn w' { s with down := freed }))))
    (going : w'.stopped = false) (at_ : w'.position = w'.floor) (found : findCkpt w'.target s = some r)
    (empty : s.restore.unrestored = []) (zero : s.restore.overflow = 0) (flags : NoFlags s) (busy : ChannelsBusy s)
    (channel : freed.channel = s.down.channel) (solo : s.casc.role = .solo) (free : s.casc.agreement = none) :
    exec i s = .next { s with
      down := freed
      restore := { s.restore with walk := none }
      ckpt := { s.ckpt with
        stack := s.ckpt.stack.takeWhile (fun x => x.number != w'.target) ++ [{ r with records := 0 }]
        generation := s.ckpt.generation + 1, fence := false, ctrl := .idle }
      filter := if s.ckpt.generation = 65535 then [] else s.filter
      log := { s.log with head := r.mark, allocated := r.mark }
      mgmt := { s.mgmt with
        result := some ⟨.rollback, .command, .done, some w'.target, w'.applied, 0, none⟩
        latches := s.mgmt.latches ||| 0x002 } } := by
  have busy' : ChannelsBusy (walkTruncated w'.target r { s with down := freed }) :=
    ⟨by rw [← busy.1]; exact congrArg _ channel, busy.2⟩
  have done : floorOutcome s.restore = .done := by rw [floorOutcome, if_pos ⟨empty, zero⟩]
  rw [run, moveOn_ends (.inr at_), finishWalk_floor (s := { s with down := freed }) going found, done,
    (walk_reported (u := walkTruncated w'.target r { s with down := freed }) nofun (by exact flags) busy').1 solo free]
  simp only [walkTruncated, walkResult, empty, zero]
  rfl

end

/-- Settles O50: each end of the header read and of the data read. -/
theorem walkReads : Obligations.WalkReads := by
  intro s w t line m h data k reset hw ctrl solo free busy flags going freed slot drain corrupt breaks
  have hw' : ({ s with down := freed } : State).restore.walk = some w := hw
  have corrupted {i : Instr} {w' : Walk} {v : State} (run : exec i s = .next (portFollow (controlFollow s v)))
      (same : v = moveOn w' { s with down := freed }) (target : w'.target = w.target) (applied : w'.applied = w.applied)
      (stopped : w'.stopped = true) (b : breaks) : exec i s = .next corrupt := by
    subst same
    rw [soloWalk_corrupt run stopped b.1 b.2 flags busy rfl solo free, target, applied]
  have lost {o : Owner} (read : o = .walkHeader ∨ o = .walkData)
      (tag : tagState t s.down = some (.outstanding ⟨o, .read, line⟩ (some m))) (limit : m.limit ≠ 0) :
      exec (.downstreamTimeout t) s = drain o :=
    walk_continues (exec_timeout reset tag limit) (deliver_readTimeout (s := tagLost t .read o s) hw read) free busy ctrl
  refine ⟨fun tag => ⟨fun good zero => ?_, fun good one above => ?_, fun bad b => ?_, fun b => ?_, lost (.inl rfl) tag⟩,
    fun tag header => ⟨fun check => ?_, fun check b => ?_, fun b => ?_, lost (.inr rfl) tag⟩⟩
  · exact walk_continues (exec_response_matched reset tag rfl) ((deliver_headerOk hw' h).trans
      (walkHeaderOk_good (s := { s with down := freed }) good zero)) free busy ctrl
  · refine walk_continues (exec_response_matched reset tag rfl) ((deliver_headerOk hw' h).trans
      ((walkHeaderOk_poisoned (s := { s with down := freed }) good one).trans ((moveOn_below going above).trans ?_))) free busy ctrl
    simp only [addUnrestored_fields]
    rfl
  · exact corrupted (exec_response_matched reset tag rfl) ((deliver_headerOk hw' h).trans (if_pos bad)) rfl rfl rfl b
  · exact corrupted (exec_response_matched reset tag rfl) (deliver_readError hw' (.inl rfl)) rfl rfl rfl b
  · exact walk_continues (exec_response_matched reset tag rfl) ((deliver_dataOk hw' data).trans
      (walkDataOk_agrees (s := { s with down := freed }) header check)) free busy ctrl
  · exact corrupted (exec_response_matched reset tag rfl) ((deliver_dataOk hw' data).trans
      (walkDataOk_disagrees header check)) rfl rfl rfl b
  · exact corrupted (exec_response_matched reset tag rfl) (deliver_readError hw' (.inr rfl)) rfl rfl rfl b

/-- Settles O51: each end of the line write, below and at the floor, and the late response in DRAIN. -/
theorem walkWrites : Obligations.WalkWrites := by
  intro s w t op line m h k reset hw ctrl solo free busy flags going header kind freed missed next
  have hw' : ({ s with down := freed } : State).restore.walk = some w := hw
  have missing : failLine w { s with down := freed } = { s with restore := missed, down := freed } :=
    (failLine_header header).trans (addUnrestored_fields _ _)
  refine ⟨fun tag => ⟨fun above => ⟨?_, ?_⟩, fun r at_ found empty zero => ?_, fun limit => ?_⟩,
    fun st tag drain quarantined above => ?_⟩
  · exact walk_continues (exec_response_matched reset tag kind) ((deliver_writeOk hw' 0).trans
      (moveOn_below (s := { s with down := freed }) going above)) free busy ctrl
  · refine walk_continues (exec_response_matched reset tag kind) ((deliver_writeError hw').trans ?_) free busy ctrl
    rw [missing]
    exact moveOn_below (s := { s with restore := missed, down := freed }) going above
  · exact soloWalk_done (w' := { w with applied := w.applied + 1, stage := .next }) ((exec_response_matched reset tag kind).trans
      (congrArg _ (congrArg portFollow (congrArg _ (deliver_writeOk hw' 0))))) going at_ found empty zero flags busy rfl solo free
  · refine walk_continues (exec_timeout reset tag limit) ((deliver_writeTimeout (s := tagLost t (opKind op) .walkWrite s) hw).trans ?_)
      free busy ctrl
    rw [failLine_header header, addUnrestored_fields, kind]
    rfl
  · exact walk_continues (exec_response_late reset tag) ((walkFreed_drain hw' drain).trans
      (moveOn_below (s := { s with down := freed }) going above)) free busy ctrl

end Sys2Proof.Machine
end

section
/-! Received messages: the checks every message passes, bad messages, and ASK. -/

namespace Sys2Proof.Machine

-- One declaration at a time: elaborated in parallel, many quick ones exceed the memory limit.
set_option Elab.async false

/-! ## The checks of a received message (R159) -/

section
variable {s : State} {side proper : Side} {m : Message} {handle : State → State}

/-- CASCADE_FAULT latched. -/
def faulted (s : State) : State := { s with mgmt := { s.mgmt with latches := s.mgmt.latches ||| 0x200 } }

theorem latch_cascadeFault (s : State) : latch .cascadeFault s = faulted s := rfl

theorem sideUsed_iff {c : Cascade} : sideUsed side c = true
    ↔ (c.role = .leader ∧ side = .down) ∨ (c.role = .follower ∧ (side = .up ∨ c.last = false)) := by
  cases role : c.role
  · simp [sideUsed, role]
  · cases side
    · simp [sideUsed, role]
    · simp [sideUsed, role]
  · cases side
    · simp [sideUsed, role]
    · simp [sideUsed, role]

theorem receive_unused (unused : ¬ sideUsed side s.casc = true) : receive side proper m handle s = s :=
  if_pos (by simpa using unused)

theorem receive_wrongWay (used : sideUsed side s.casc = true) (formed : m.wellFormed = true) (wrong : side ≠ proper) :
    receive side proper m handle s = faulted s := by
  rw [receive, if_neg (by simp [used]), if_neg (by simp [formed]), if_pos wrong, latch_cascadeFault]

theorem receive_handled (used : sideUsed side s.casc = true) (formed : m.wellFormed = true) :
    receive side side m handle s = handle s := by
  rw [receive, if_neg (by simp [used]), if_neg (by simp [formed]), if_neg (by simp)]

/-- The UP side of a follower is used. -/
theorem sideUsed_up (follower : s.casc.role = .follower) : sideUsed .up s.casc = true :=
  sideUsed_iff.mpr (.inr ⟨follower, .inl rfl⟩)

theorem sideUsed_down (used : s.casc.role = .leader ∨ (s.casc.role = .follower ∧ s.casc.last = false)) :
    sideUsed .down s.casc = true :=
  sideUsed_iff.mpr (used.imp (⟨·, rfl⟩) fun ⟨follower, last⟩ => ⟨follower, .inr last⟩)

variable {id : OpId} {kind : OpKind} {number : CkptNumber} {v : ReadyVerdict} {o : DoneOutcome} {src : AskSource}

theorem exec_prepareReceived (h : inReset s = false) : exec (.prepareReceived side id kind number) s
    = .next (receive side .up (.prepare id kind number) (handlePrepare id kind number) s) := event_of_not_inReset h _

theorem exec_readyReceived (h : inReset s = false) : exec (.readyReceived side id v) s
    = .next (receive side .down (.ready id v) (handleReady id v) s) := event_of_not_inReset h _

theorem exec_goReceived (h : inReset s = false) : exec (.goReceived side id number) s
    = .next (receive side .up (.go id number) (handleGo id number) s) := event_of_not_inReset h _

theorem exec_abandonReceived (h : inReset s = false) : exec (.abandonReceived side id) s
    = .next (receive side .up (.abandon id) (handleAbandon id) s) := event_of_not_inReset h _

theorem exec_doneReceived (h : inReset s = false) : exec (.doneReceived side id o) s
    = .next (receive side .down (.done id o) (handleDone id o) s) := event_of_not_inReset h _

theorem exec_askReceived (h : inReset s = false) : exec (.askReceived side src) s
    = .next (receive side .down (.ask src) (handleAsk src) s) := event_of_not_inReset h _

theorem exec_badMessage (h : inReset s = false) (bytes : List Byte) : exec (.badMessage side bytes) s
    = .next (if sideUsed side s.casc = true ∧ decodeMessage bytes = none then discardBad s else s) :=
  event_taken (f := fun s => if sideUsed side s.casc = true ∧ decodeMessage bytes = none then discardBad s else s) h

theorem prepare_wellFormed (nonzero : number ≠ 0) : (Message.prepare id kind number).wellFormed = true := by
  cases kind
  · rfl
  · simpa [Message.wellFormed] using nonzero

theorem go_wellFormed (nonzero : number ≠ 0) : (Message.go id number).wellFormed = true := by
  simpa [Message.wellFormed] using nonzero

end

/-- The ASKs of a list are those of the two sources. -/
theorem any_ask (l : List Message) : (l.any fun m => m == .ask .line || m == .ask .timer) = true
    ↔ Message.ask .line ∈ l ∨ Message.ask .timer ∈ l := by
  simp only [List.any_eq_true, Bool.or_eq_true, beq_iff_eq]
  constructor
  · rintro ⟨m, hm, rfl | rfl⟩
    · exact .inl hm
    · exact .inr hm
  · rintro (h | h)
    · exact ⟨_, h, .inl rfl⟩
    · exact ⟨_, h, .inr rfl⟩

/-- Settles O53: the checks of R159 in order, and ASK at a leader and at a follower. -/
theorem linkMessages : Obligations.LinkMessages := by
  intro s side id kind number v o src h used faults merged ask
  have sideUsed : sideUsed side s.casc = true ↔ used := sideUsed_iff
  refine ⟨?_, fun bytes u bad => ?_, fun unused => ?_, fun u up => ?_, fun u down nonzero => ?_, fun leader => ?_,
    fun follower notLast => ?_⟩
  · show execMessageSent side s = _
    rw [execMessageSent, event_taken h]
    cases side <;> rfl
  · rw [exec_badMessage h, if_pos ⟨sideUsed.mpr u, bad⟩]
    rfl
  · have unused' := mt sideUsed.mp unused
    refine ⟨fun bytes => ?_, ?_, ?_, ?_, ?_, ?_, ?_⟩
    · rw [exec_badMessage h, if_neg fun both => unused' both.1]
    · rw [exec_prepareReceived h, receive_unused unused']
    · rw [exec_readyReceived h, receive_unused unused']
    · rw [exec_goReceived h, receive_unused unused']
    · rw [exec_abandonReceived h, receive_unused unused']
    · rw [exec_doneReceived h, receive_unused unused']
    · rw [exec_askReceived h, receive_unused unused']
  · have wrong : side ≠ .down := by simp [up]
    have u := sideUsed.mpr u
    refine ⟨?_, ?_, ?_⟩
    · rw [exec_readyReceived h, receive_wrongWay u rfl wrong]
      rfl
    · rw [exec_doneReceived h, receive_wrongWay u rfl wrong]
      rfl
    · rw [exec_askReceived h, receive_wrongWay u rfl wrong]
      rfl
  · have wrong : side ≠ .up := by simp [down]
    have u := sideUsed.mpr u
    refine ⟨?_, ?_, ?_⟩
    · rw [exec_prepareReceived h, receive_wrongWay u (prepare_wellFormed nonzero) wrong]
      rfl
    · rw [exec_goReceived h, receive_wrongWay u (go_wellFormed nonzero) wrong]
      rfl
    · rw [exec_abandonReceived h, receive_wrongWay u rfl wrong]
      rfl
  · intro latched
    have checked : exec (.askReceived .down src) s = .next (portFollow (triggerCheck latched)) := by
      rw [exec_askReceived h, receive_handled (sideUsed_down (.inl leader)) rfl, handleAsk, if_pos leader,
        latchFlag_cascade leader]
      simp only [latched, flagNoted]
      split_ifs <;> rfl
    refine ⟨?_, fun busy channels => ?_⟩
    · rw [checked, exec_triggerTakeStart (by exact h)]
    · rw [checked, triggerCheck_busy (longOp_of_ctrl (by exact busy)) (by exact channels)]
  · have asked : exec (.askReceived .down src) s = .next (produceAsk src .up s) := by
      rw [exec_askReceived h, receive_handled (sideUsed_down (.inr ⟨follower, notLast⟩)) rfl, handleAsk,
        if_neg (by simp [follower])]
    obtain ⟨merges, joins, lost⟩ := produceAsk_up src s
    have waiting : ask = true ↔ _ := any_ask s.casc.upList
    have absent (none : ask = false) := mt waiting.mpr (by simp [none])
    rw [asked]
    exact ⟨fun none room => congrArg _ (joins (absent none) room), fun some => congrArg _ (merges (waiting.mp some)),
      fun none full => congrArg _ (lost (absent none) full)⟩

end Sys2Proof.Machine
end

section
/-! PREPARE at a follower. -/

namespace Sys2Proof.Machine

-- One declaration at a time: elaborated in parallel, many quick ones exceed the memory limit.
set_option Elab.async false

section
variable {s t : State} {id : OpId} {kind : OpKind} {number k : CkptNumber} {reason : RefuseReason} {g : Goal}

theorem prepareReceived_handled (h : inReset s = false) (follower : s.casc.role = .follower)
    (formed : (Message.prepare id kind number).wellFormed = true) :
    exec (.prepareReceived .up id kind number) s = .next (handlePrepare id kind number s) := by
  rw [exec_prepareReceived h, receive_handled (sideUsed_up follower) formed]

/-- A PREPARE during an agreement is refused (R166). -/
theorem handlePrepare_busy (busy : s.casc.agreement.isSome = true) :
    handlePrepare id kind number s = produce (.ready id (.refuse .state)) .up s := by
  obtain ⟨a, ha⟩ := Option.isSome_iff_exists.mp busy
  simp only [handlePrepare, ha]

theorem handlePrepare_refused (free : s.casc.agreement = none) (refusal : prepareRefusal kind number s = some reason) :
    handlePrepare id kind number s = setAbandoned id (produce (.ready id (.refuse reason)) .up s) := by
  simp only [handlePrepare, free, refusal]

theorem handlePrepare_accepted (free : s.casc.agreement = none) (refusal : prepareRefusal kind number s = none) :
    handlePrepare id kind number s = portFollow (controlFollow (acceptPrepare id (goalOf kind number) s)
      (acceptPrepare id (goalOf kind number) s)) := by
  simp only [handlePrepare, free, refusal]

/-! ## The checks -/

theorem prepareRefusal_startable (startable : s.ckpt.ctrl = .idle ∨ ∃ r, s.ckpt.ctrl = .held r) :
    prepareRefusal .rollback number s = if (findCkpt number s).isNone = true then some .notFound
      else if targetLive number s = false then some .broken else none := by
  rw [← isHeld_iff] at startable
  simp only [prepareRefusal]
  rw [if_neg]
  rintro ⟨away, notHeld⟩
  rcases startable with idle | held
  · exact away idle
  · simp [held] at notHeld

theorem prepareRefusal_busy (away : ¬ (s.ckpt.ctrl = .idle ∨ ∃ r, s.ckpt.ctrl = .held r)) :
    prepareRefusal .rollback number s = some .state := by
  rw [← isHeld_iff, not_or] at away
  simp only [prepareRefusal]
  rw [if_pos ⟨away.1, by simpa using away.2⟩]

/-! ## The acceptance -/

/-- A follower that has settled sends READY(OK) once, when READY(OK) has come from below or is not needed (R167). -/
theorem readyOk_sends {a : Agreement} (follower : s.casc.role = .follower) (ha : s.casc.agreement = some a)
    (settled : a.settled = true) (below : a.below = .ok ∨ a.below = .notNeeded) (unsent : a.readySent = .none)
    (go : a.go = false) (room : s.casc.upList.length < 4) : readyOk s = { s with casc := { s.casc with
      agreement := some { a with readySent := .ok }, upList := s.casc.upList ++ [.ready a.id .ok] } } := by
  simp only [readyOk, ha]
  rw [if_pos ⟨follower, settled, below, unsent, go⟩, produce_up room, modAgreement_some (by exact ha)]

/-- The cascade part of a follower that accepted a PREPARE (R166). -/
def joined (id : OpId) (g : Goal) (c : Cascade) : Cascade := { c with
  agreement := some (newAgreement id g .cascade (if c.last then .notNeeded else .awaited) c.holdLimit)
  downList := if c.last then c.downList else c.downList ++ [prepareOf id g] }

theorem forwardPrepare_joined (room : s.casc.downList.length < 4) :
    forwardDown (prepareOf id g) (s.onCasc fun c =>
      { c with agreement := some (newAgreement id g .cascade (if c.last then .notNeeded else .awaited) c.holdLimit) })
      = { s with casc := joined id g s.casc } := forwardDown_room (by exact room)

theorem acceptPrepare_take (room : s.casc.downList.length < 4) : acceptPrepare id .take s = { s with
    casc := joined id .take s.casc
    ckpt := { s.ckpt with fence := true, ctrl := .settling .take .cascade } } := by
  simp only [acceptPrepare, forwardPrepare_joined room]
  rfl

theorem acceptPrepare_rollback (room : s.casc.downList.length < 4) (none : s.log.waitList = []) :
    acceptPrepare id (.rollback k) s = { rollbackBegun k .cascade s with casc := joined id (.rollback k) s.casc } := by
  simp only [acceptPrepare, forwardPrepare_joined room, beginFollower]
  exact beginRollback_noneWaiting none

theorem follow_settlingTake {b : State} {src : Source} (ctrl : t.ckpt.ctrl = .settling .take src) :
    portFollow (controlFollow b t) = afterSettle b (settleTake t) := by
  rw [controlFollow, afterSettle, settle_ofTake ctrl]

/-- A follower's operation settled in the step of its PREPARE: AGREEING, and the READY(OK) of the last of the
chain (R71, R167). -/
theorem joined_settles (h : inReset t = false) (ctrl : t.ckpt.ctrl = .settling g .cascade) {c : Cascade}
    (casc : t.casc = joined id g c) (follower : c.role = .follower) (busy : ChannelsBusy t) (room : c.upList.length < 4) :
    afterSettle t (enterAgreeing g .cascade t) = { t with
      ckpt := { t.ckpt with ctrl := .agreeing g .cascade }
      casc := { t.casc with
        agreement := some
          { newAgreement id g .cascade (if c.last then .notNeeded else .awaited) c.holdLimit with
            settled := true, readySent := if c.last then .ok else .none }
        upList := if c.last then c.upList ++ [.ready id .ok] else c.upList } } := by
  have ha : t.casc.agreement = some (newAgreement id g .cascade (if c.last then .notNeeded else .awaited) c.holdLimit) := by
    rw [casc]
    rfl
  have up : t.casc.upList = c.upList := by rw [casc]; rfl
  obtain ⟨awaited, -, sends⟩ := agreed_follow (a := newAgreement id g .cascade (if c.last then .notNeeded else .awaited) c.holdLimit)
    h ctrl rfl ⟨busy.1, .inl busy.2⟩
  rw [enterAgreeing_fields ha]
  cases last : c.last
  · rw [last] at awaited
    simp only [awaited rfl]
    rw [← up]
    rfl
  · rw [last] at sends
    have sent := sends (by rw [casc]; exact follower) (.inr rfl) rfl
    rw [exec_readyOkSend (by exact h)] at sent
    refine (Host.Outcome.next.inj sent).trans ?_
    rw [readyOk_sends (by rw [casc]; exact follower) rfl rfl (.inr rfl) rfl rfl (by exact up.symm ▸ room), ← up]
    rfl

end

/-- Settles O54: the refusals in order, and the acceptance with the settle that is part of it. -/
theorem prepare : Obligations.Prepare := by
  intro s id number h follower room nonzero take rollback refused accepted space startable
  have takes : take = .next (handlePrepare id .take 0 s) := prepareReceived_handled h follower rfl
  have rolls : rollback = .next (handlePrepare id .rollback number s) :=
    prepareReceived_handled h follower (prepare_wellFormed nonzero)
  have refusal {kind : OpKind} {n : CkptNumber} {reason : RefuseReason} (free : s.casc.agreement = none)
      (why : prepareRefusal kind n s = some reason) : .next (handlePrepare id kind n s) = refused reason := by
    rw [handlePrepare_refused free why, produce_up room]
    rfl
  rw [takes, rolls]
  refine ⟨?_, fun free => ⟨fun why => ?_, fun idle configured full => ?_,
    fun idle configured spare busy below => ?_, fun away => ?_, fun ready absent => ?_, fun r ready found broken => ?_,
    fun r ready found live none busy below => ?_⟩⟩
  · intro agreement busy
    rw [handlePrepare_busy agreement, handlePrepare_busy agreement, produce_up room]
    exact ⟨rfl, rfl⟩
  · refine refusal free ?_
    simp only [prepareRefusal]
    rw [if_pos why]
  · refine refusal free ?_
    simp only [space, not_or, not_lt] at full
    simp only [prepareRefusal]
    rw [if_neg (by simp [idle, configured]), if_pos ⟨by simpa [stackFull] using full.1, by simpa using full.2⟩]
  · have passes : prepareRefusal .take 0 s = Option.none := by
      simp only [prepareRefusal]
      rw [if_neg (by simp [idle, configured]), if_neg]
      rintro ⟨full, notRolling⟩
      rcases spare with few | rolling
      · simp [stackFull] at full
        omega
      · simp [rolling] at notRolling
    rw [handlePrepare_accepted free passes, goalOf, acceptPrepare_take below]
    cases tracker : settled s
    · rw [follow_still]
      · simp [accepted, joined, newAgreement, prepareOf]
      case settles => exact settle_unsettled tracker
      case follow => exact cascadeFollow_unsettled rfl rfl rfl
      case check => exact .inr (.inl (longOp_of_ctrl nofun))
      case ports => exact portFollow_busy busy
    · rw [follow_settlingTake rfl, settleTake_settling rfl (by exact tracker), if_neg (by simp [joined, follower]),
        joined_settles (by exact h) rfl rfl follower (by exact busy) room]
      simp [accepted, joined, newAgreement, prepareOf]
  · exact refusal free (prepareRefusal_busy away)
  · exact refusal free (by rw [prepareRefusal_startable ready, if_pos (findCkpt_isNone_iff.mpr absent)])
  · refine refusal free ?_
    rw [prepareRefusal_startable ready, if_neg (by simp [found]), if_pos (by rw [targetLive_of_found found, broken]; rfl)]
  · have passes : prepareRefusal .rollback number s = Option.none := by
      rw [prepareRefusal_startable ready, if_neg (by simp [found]), if_neg (by rw [targetLive_of_found found, live]; nofun)]
    rw [handlePrepare_accepted free passes, goalOf, acceptPrepare_rollback below none]
    cases tracker : rollbackSettled s
    · rw [follow_still]
      · simp [accepted, joined, newAgreement, prepareOf, rollbackBegun]
      case settles => exact settle_none ⟨nofun, fun _ _ _ => tracker⟩
      case follow => exact cascadeFollow_unsettled rfl rfl rfl
      case check => exact .inr (.inl (longOp_of_ctrl nofun))
      case ports => exact portFollow_busy busy
    · have target : targetLive number { rollbackBegun number .cascade s with casc := joined id (.rollback number) s.casc } = true := by
        rw [targetLive_of_found (by exact found), live]
        rfl
      rw [follow_settlingRollback rfl, settleRollback_settling rfl (by exact tracker), if_pos target,
        if_neg (by simp [joined, follower]), joined_settles (by exact h) rfl rfl follower (by exact busy) room]
      simp [accepted, joined, newAgreement, prepareOf, rollbackBegun]

end Sys2Proof.Machine
end

section
/-! READY, ABANDON and the timers of an agreement. -/

namespace Sys2Proof.Machine

-- One declaration at a time: elaborated in parallel, many quick ones exceed the memory limit.
set_option Elab.async false

section
variable {s t : State} {a : Agreement} {id : OpId} {v : ReadyVerdict} {o : ResultOutcome}

/-! ## What follows a change of the agreement -/

theorem longOp_leader (leader : s.casc.role = .leader) (ha : s.casc.agreement = some a) : longOp s = true := by
  simp [longOp, leader, ha]

/-- Nothing follows a change of the cascade part after which no send is due, while no settle is due. -/
theorem chain_still (busy : ChannelsBusy s) (settles : NoSettleDue s) (sends : NoSendDue t)
    (check : longOp t = true ∨ dueSource t = none) (ctrl : t.ckpt.ctrl = s.ckpt.ctrl := by rfl)
    (entries : t.entries = s.entries := by rfl) (cls : t.cls = s.cls := by rfl)
    (channel : t.down.channel = s.down.channel := by rfl) (up : t.up = s.up := by rfl) :
    portFollow (controlFollow s t) = t :=
  follow_still (settle_notDue settles ctrl entries cls) (cascadeFollow_notDue sends) (.inr check)
    (portFollow_busy ⟨by rw [channel]; exact busy.1, by rw [up]; exact busy.2⟩)

/-- No send of a leader is due while READY is awaited, or before the unit itself has settled (R163). -/
theorem noSendDue_leader (leader : s.casc.role = .leader) (ha : s.casc.agreement = some a)
    (idle : (a.go = false ∧ (a.settled = false ∨ a.below ≠ .ok)) ∨ (a.go = true ∧ (a.own = none ∨ a.belowDone = none))) :
    NoSendDue s := by
  intro b hb
  obtain rfl : a = b := Option.some.inj (ha.symm.trans hb)
  refine ⟨fun _ go => ?_, fun follower => by simp [leader] at follower, fun go => ?_⟩
  · rcases idle with ⟨-, waits⟩ | ⟨sent, -⟩
    · exact waits
    · simp [sent] at go
  · rcases idle with ⟨unsent, -⟩ | ⟨-, own | below⟩
    · simp [unsent] at go
    · exact .inl own
    · exact .inr ⟨below, fun follower => by simp [leader] at follower⟩

/-- No send of a follower is due before it has settled, once it has sent READY, or while READY is awaited from
below (R167, R170). -/
theorem noSendDue_follower (follower : s.casc.role = .follower) (ha : s.casc.agreement = some a)
    (idle : (a.go = false ∧ (a.settled = false ∨ a.readySent ≠ .none ∨ (a.below ≠ .ok ∧ a.below ≠ .notNeeded)))
      ∨ (a.go = true ∧ (a.own = none ∨ (a.belowDone = none ∧ s.casc.last = false)))) : NoSendDue s := by
  intro b hb
  obtain rfl : a = b := Option.some.inj (ha.symm.trans hb)
  refine ⟨fun leader => by simp [follower] at leader, fun _ go => ?_, fun go => ?_⟩
  · rcases idle with ⟨-, waits⟩ | ⟨sent, -⟩
    · exact waits
    · simp [sent] at go
  · rcases idle with ⟨unsent, -⟩ | ⟨-, own | ⟨below, last⟩⟩
    · simp [unsent] at go
    · exact .inl own
    · exact .inr ⟨below, fun _ => last⟩

/-- A message discarded, with or without its alert: nothing follows. -/
theorem judged_atRest {p : Prop} [Decidable p] (rest : AtRest s) (busy : ChannelsBusy s) :
    portFollow (controlFollow s (if p then s else faulted s)) = if p then s else faulted s := by
  split_ifs
  · exact follow_atRest rest busy rfl rfl rfl rfl
  · exact follow_atRest rest busy rfl rfl rfl rfl

theorem faulted_still (busy : ChannelsBusy s) (settles : NoSettleDue s) (sends : NoSendDue s) :
    portFollow (controlFollow s (faulted s)) = faulted s :=
  follow_notDue busy sends rfl rfl rfl rfl (settle_notDue settles rfl rfl rfl)

theorem judged_still {p : Prop} [Decidable p] (busy : ChannelsBusy s) (settles : NoSettleDue s) (sends : NoSendDue s) :
    portFollow (controlFollow s (if p then s else faulted s)) = if p then s else faulted s := by
  split_ifs
  · exact follow_notDue busy sends rfl rfl rfl rfl (settle_none settles)
  · exact faulted_still busy settles sends

/-! ## The end of an agreement before GO -/

/-- The management part once an operation has ended without a push and without a walk (R162, R168). -/
def endedResult (a : Agreement) (o : ResultOutcome) (m : Mgmt) : Mgmt := { m with
  result := some (match a.goal with
    | .take => ⟨.take, a.source, o, none, 0, 0, some a.id⟩
    | .rollback k => ⟨.rollback, a.source, o, some k, 0, 0, some a.id⟩)
  latches := m.latches ||| (if a.goal = .take then 0x001 else 0x002) }

theorem endBeforeGo_fields (a : Agreement) (o : ResultOutcome) (s : State) : endBeforeGo a o s = { s with
    casc := { s.casc with agreement := none }
    ckpt := { s.ckpt with fence := false, ctrl := .idle }
    mgmt := endedResult a o s.mgmt } := by
  unfold endBeforeGo endedResult
  cases a.goal <;> rfl

/-! ## READY at a leader -/

theorem readyReceived_leader (h : inReset s = false) (leader : s.casc.role = .leader) :
    exec (.readyReceived .down id v) s = .next (portFollow (controlFollow s (leaderReady id v s))) := by
  rw [exec_readyReceived h, receive_handled (sideUsed_down (.inl leader)) rfl, handleReady, if_pos leader]

theorem leaderReady_none (free : s.casc.agreement = none) :
    leaderReady id v s = if id = s.casc.opId then s else faulted s := by
  simp only [leaderReady, free, latch_cascadeFault]

theorem leaderReady_ok (ha : s.casc.agreement = some a) (below : a.below = .awaited) : leaderReady a.id .ok s = { s with
    casc := { s.casc with agreement := some { a with below := .ok, timer := none } } } := by
  simp only [leaderReady, ha, below, if_true, modAgreement_some ha]

theorem leaderReady_refuse (ha : s.casc.agreement = some a) (below : a.below = .awaited) (reason : RefuseReason) :
    leaderReady a.id (.refuse reason) s = leaderRefused a reason s := by
  simp only [leaderReady, ha, below, if_true]

theorem leaderReady_stray (ha : s.casc.agreement = some a) (stray : id ≠ a.id ∨ a.below ≠ .awaited) :
    leaderReady id v s = faulted s := by
  simp only [leaderReady, ha, latch_cascadeFault]
  split_ifs with same awaited
  · exact absurd stray (by simp [same, awaited])
  · rfl
  · rfl

theorem exec_agreementTimeout_none (h : inReset s = false) (free : s.casc.agreement = none) :
    exec .agreementTimeout s = .next s := by
  simp only [exec, execAgreementTimeout, event_taken h, free]

theorem exec_agreementTimeout_some (h : inReset s = false) (ha : s.casc.agreement = some a) :
    exec .agreementTimeout s = .next (if s.casc.role = .leader ∧ a.timer.isSome = true then
      portFollow (controlFollow s (endBeforeGo a .timeout (produce (.abandon a.id) .down s))) else s) := by
  simp only [exec, execAgreementTimeout, event_taken h, ha]

/-- A leader's agreement ended before GO: nothing follows (R162). -/
theorem endBeforeGo_still (busy : ChannelsBusy s) (flags : NoFlags s) (ckpt : t.ckpt = s.ckpt) (down : t.down = s.down)
    (up : t.up = s.up) : portFollow (controlFollow s (endBeforeGo a o t)) = { t with
      casc := { t.casc with agreement := none }
      ckpt := { t.ckpt with fence := false, ctrl := .idle }
      mgmt := endedResult a o t.mgmt } := by
  rw [endBeforeGo_fields, follow_still]
  case settles => exact settle_elsewhere nofun
  case follow => exact cascadeFollow_none rfl
  case check => exact .inr (.inr (dueSource_noFlags (by rw [NoFlags, ckpt]; exact flags)))
  case ports => exact portFollow_busy (by rw [ChannelsBusy, down, up]; exact busy)

end

/-- Settles O55: each READY and the timer, at rest and during an agreement. -/
theorem leaderReady_spec : Obligations.LeaderReady := by
  intro s id v h leader busy flags ready faults
  refine ⟨fun rest => ⟨?_, exec_agreementTimeout_none h rest.2⟩, ?_⟩
  · show exec (.readyReceived .down id v) s = _
    rw [readyReceived_leader h leader, leaderReady_none rest.2]
    exact congrArg _ (judged_atRest rest busy)
  · intro a ha settles heard ended
    have op : longOp s = true := longOp_leader leader ha
    have received : ready = .next (portFollow (controlFollow s (leaderReady id v s))) := readyReceived_leader h leader
    rw [received]
    refine ⟨?_, ?_, fun stray idle => ?_, fun stopped => ?_, fun running room => ?_⟩
    · rintro rfl below go rfl
      rw [leaderReady_ok ha below]
      have op' : longOp heard = true := longOp_leader (a := { a with below := .ok, timer := none }) leader rfl
      refine ⟨fun unsettled => ?_, fun settled => ?_⟩
      · rw [chain_still (t := heard) busy settles (noSendDue_leader leader rfl (.inl ⟨go, .inl unsettled⟩)) (.inl op')]
      · have still : settle heard = heard := settle_notDue settles rfl rfl rfl
        have follows := cascadeFollow_leader (s := heard) leader
        rw [exec_leaderGo (by exact h), controlFollow, still, follows, op, op']
    · rintro reason rfl below go rfl room
      rw [leaderReady_refuse ha below, leaderRefused]
      show Host.Outcome.next (portFollow (controlFollow s (endBeforeGo a .refused (produce (.abandon a.id) .down
        { s with casc := { s.casc with lastRefusal := some reason } })))) = _
      rw [produce_down (by exact room)]
      exact congrArg Host.Outcome.next (endBeforeGo_still busy flags rfl rfl rfl)
    · rw [leaderReady_stray ha stray, faulted_still busy settles (noSendDue_leader leader ha idle)]
      rfl
    · rw [exec_agreementTimeout_some h ha, if_neg (by simp [stopped])]
    · rw [exec_agreementTimeout_some h ha, if_pos ⟨leader, running⟩, produce_down room]
      exact congrArg Host.Outcome.next (endBeforeGo_still busy flags rfl rfl rfl)

end Sys2Proof.Machine
end

section
/-! READY from below, ABANDON and the hold timer at a follower. -/

namespace Sys2Proof.Machine

-- One declaration at a time: elaborated in parallel, many quick ones exceed the memory limit.
set_option Elab.async false

section
variable {s : State} {a : Agreement} {id : OpId} {v : ReadyVerdict}

/-! ## READY from below (R167, R171) -/

theorem readyReceived_follower (h : inReset s = false) (follower : s.casc.role = .follower) (last : s.casc.last = false) :
    exec (.readyReceived .down id v) s = .next (portFollow (controlFollow s (followerReady id v s))) := by
  rw [exec_readyReceived h, receive_handled (sideUsed_down (.inr ⟨follower, last⟩)) rfl, handleReady,
    if_neg (by simp [follower])]

theorem followerReady_none (free : s.casc.agreement = none) :
    followerReady id v s = if s.casc.abandoned = some id then s else faulted s := by
  simp only [followerReady, free, latch_cascadeFault]

theorem followerReady_other (ha : s.casc.agreement = some a) (other : id ≠ a.id) :
    followerReady id v s = if s.casc.abandoned = some id then s else faulted s := by
  simp only [followerReady, ha, if_neg other, latch_cascadeFault]

/-- A READY of the agreement in the wrong phase (R171, log 27). -/
theorem followerReady_late (ha : s.casc.agreement = some a) (late : a.below ≠ .awaited ∨ a.go = true) :
    followerReady a.id v s = faulted s := by
  have phase : ¬ (a.below = .awaited ∧ a.go = false) := by
    rintro ⟨awaited, go⟩
    rcases late with below | sent
    · exact below awaited
    · simp [go] at sent
  simp only [followerReady, ha, if_true, if_neg phase, latch_cascadeFault]

theorem followerReady_ok (ha : s.casc.agreement = some a) (below : a.below = .awaited) (go : a.go = false) :
    followerReady a.id .ok s = { s with casc := { s.casc with agreement := some { a with below := .ok } } } := by
  simp only [followerReady, ha, if_true, if_pos (And.intro below go), modAgreement_some ha]

/-- READY(REFUSE) goes up unless a READY has been sent (R167). -/
theorem followerReady_refuse (ha : s.casc.agreement = some a) (below : a.below = .awaited) (go : a.go = false)
    (room : s.casc.upList.length < 4) (reason : RefuseReason) : followerReady a.id (.refuse reason) s = { s with
      casc := { s.casc with
        agreement := some { a with
          below := .refused, readySent := if a.readySent = .none then .refuse else a.readySent }
        upList := if a.readySent = .none then s.casc.upList ++ [.ready a.id (.refuse reason)] else s.casc.upList } } := by
  simp only [followerReady, ha, if_true, if_pos (And.intro below go)]
  split_ifs with unsent
  · rw [produce_up room, modAgreement_some (by exact ha)]
  · rw [modAgreement_some ha]

/-! ## ABANDON and the hold timer (R168, R171) -/

theorem abandonReceived_follower (h : inReset s = false) (follower : s.casc.role = .follower) :
    exec (.abandonReceived .up id) s = .next (handleAbandon id s) := by
  rw [exec_abandonReceived h, receive_handled (sideUsed_up follower) rfl]

/-- An ABANDON of another id is only forwarded. -/
theorem handleAbandon_other (other : ∀ a, s.casc.agreement = some a → id ≠ a.id) :
    handleAbandon id s = forwardDown (.abandon id) s := by
  unfold handleAbandon
  split
  · rename_i a ha
    rw [if_neg (other a ha)]
  · rfl

theorem handleAbandon_same (ha : s.casc.agreement = some a) :
    handleAbandon a.id s = if a.go then faulted s else leaveAgreement a .refused (forwardDown (.abandon a.id) s) := by
  simp only [handleAbandon, ha, if_true, latch_cascadeFault]

theorem leaveAgreement_fields (a : Agreement) (o : ResultOutcome) (s : State) : leaveAgreement a o s = { s with
    casc := { s.casc with agreement := none, abandoned := some a.id }
    ckpt := { s.ckpt with fence := false, ctrl := .idle }
    mgmt := endedResult a o s.mgmt } := by
  rw [leaveAgreement, endBeforeGo_fields]
  rfl

theorem exec_holdTimeout_none (h : inReset s = false) (free : s.casc.agreement = none) : exec .holdTimeout s = .next s := by
  simp only [exec, execHoldTimeout, event_taken h, free]

theorem exec_holdTimeout_some (h : inReset s = false) (ha : s.casc.agreement = some a) :
    exec .holdTimeout s = .next (if s.casc.role = .follower ∧ a.go = false ∧ a.timer.isSome = true then
      leaveAgreement a .timeout s else s) := by
  simp only [exec, execHoldTimeout, event_taken h, ha]

end

/-- Settles O56: at rest, after GO and before it. -/
theorem followerReadyAbandon : Obligations.FollowerReadyAbandon := by
  intro s id v h follower busy upRoom downRoom ready abandon faults down
  have received (last : s.casc.last = false) : ready = .next (portFollow (controlFollow s (followerReady id v s))) :=
    readyReceived_follower h follower last
  have abandoned : abandon = .next (handleAbandon id s) := abandonReceived_follower h follower
  have forwarded : forwardDown (.abandon id) s = { s with casc := { s.casc with downList := down } } := forwardDown_room downRoom
  have elsewhere (other : ∀ a, s.casc.agreement = some a → id ≠ a.id) :
      abandon = .next { s with casc := { s.casc with downList := down } } := by
    rw [abandoned, handleAbandon_other other, forwarded]
  have notDue : dueSource s = none := dueSource_follower follower
  refine ⟨fun rest => ⟨fun last => ?_, elsewhere fun a ha => ?_, exec_holdTimeout_none h rest.2⟩,
    fun a ha go => ⟨fun last settles open_ => ?_, ?_, ?_⟩, ?_⟩
  · rw [received last, followerReady_none rest.2]
    exact congrArg _ (judged_atRest rest busy)
  · exact absurd (rest.2.symm.trans ha) nofun
  · have sends : NoSendDue s := noSendDue_follower follower ha (.inr ⟨go, open_.imp_right fun below => ⟨below, last⟩⟩)
    rw [received last]
    by_cases same : id = a.id
    · subst same
      rw [followerReady_late ha (.inr go), faulted_still busy settles sends, if_neg (by simp)]
      rfl
    · rw [followerReady_other ha same, judged_still busy settles sends]
      simp only [same, ne_eq, not_false_eq_true, true_and]
      rfl
  · by_cases same : id = a.id
    · subst same
      rw [abandoned, handleAbandon_same ha, if_pos go, if_pos rfl]
      rfl
    · rw [if_neg same]
      exact elsewhere fun b hb => by
        obtain rfl : a = b := Option.some.inj (ha.symm.trans hb)
        exact same
  · rw [exec_holdTimeout_some h ha, if_neg (by simp [go])]
  · intro a ha go own left due heard
    refine ⟨?_, fun last settles idle => ?_, ?_, fun other => ?_, fun stopped => ?_, fun running => ?_⟩
    · rintro last settles rfl below
      rw [received last]
      refine ⟨?_, ?_, ?_⟩
      · rintro rfl waits
        rw [followerReady_ok ha below go]
        exact congrArg _ (chain_still (t := heard) busy settles
          (noSendDue_follower follower rfl (.inl ⟨go, waits.imp_right .inl⟩)) (.inr (dueSource_follower follower)))
      · rintro rfl settled unsent
        rw [followerReady_ok ha below go, exec_readyOkSend (by exact h), controlFollow]
        have still : settle heard = heard := settle_notDue settles rfl rfl rfl
        have follows : cascadeFollow heard = readyOk heard := cascadeFollow_follower (by exact follower) rfl go
        rw [still, follows, triggerCheck_idle (.inr (dueSource_follower (by simpa using follower))), ite_self,
          portFollow_busy (by simpa [ChannelsBusy] using busy)]
      · rintro reason rfl
        rw [followerReady_refuse ha below go upRoom]
        refine congrArg _ (chain_still busy settles (noSendDue_follower follower rfl (.inl ⟨go, .inr (.inl ?_)⟩))
          (.inr (dueSource_follower follower)))
        simp only
        split_ifs with unsent
        · nofun
        · exact unsent
    · have sends : NoSendDue s := by
        refine noSendDue_follower follower ha (.inl ⟨go, ?_⟩)
        simp only [due, not_and_or, not_or, Bool.not_eq_true] at idle
        exact idle
      rw [received last]
      refine ⟨fun other => ?_, ?_⟩
      · rw [followerReady_other ha other]
        exact congrArg _ (judged_still busy settles sends)
      · rintro rfl below
        rw [followerReady_late ha (.inl below), faulted_still busy settles sends]
        rfl
    · rintro rfl
      rw [abandoned, handleAbandon_same ha, if_neg (by simp [go]), forwarded, leaveAgreement_fields]
      rfl
    · exact elsewhere fun b hb => by
        obtain rfl : a = b := Option.some.inj (ha.symm.trans hb)
        exact other
    · rw [exec_holdTimeout_some h ha, if_neg (by simp [stopped])]
    · rw [exec_holdTimeout_some h ha, if_pos ⟨follower, go, running⟩, leaveAgreement_fields]
      rfl

end Sys2Proof.Machine
end

section
/-! GO at a follower: the take applied, or the walk begun. -/

namespace Sys2Proof.Machine

-- One declaration at a time: elaborated in parallel, many quick ones exceed the memory limit.
set_option Elab.async false

section
variable {s u : State} {a : Agreement} {id : OpId} {number k : CkptNumber} {r : CkptRecord} {o : DoneOutcome}

/-! ## A walk that ends in the step it begins, in a chain (R75, R82, R83) -/

/-- The walk whose range holds no record, its report apart. -/
def emptyWalk (k : CkptNumber) (r : CkptRecord) (s : State) : State := { s with
  ckpt := { s.ckpt with
    stack := s.ckpt.stack.takeWhile (fun x => x.number != k) ++ [{ r with records := 0 }]
    generation := s.ckpt.generation + 1, fence := false, ctrl := .idle }
  filter := if s.ckpt.generation = 65535 then [] else s.filter
  log := { s.log with allocated := r.mark }
  restore := { s.restore with walk := none } }

theorem startWalk_emptyFollower (found : findCkpt k s = some r) (range : s.log.head = r.mark)
    (empty : s.restore.unrestored = []) (zero : s.restore.overflow = 0) (follower : s.casc.role = .follower)
    (ha : s.casc.agreement = some a) : startWalk k s = { emptyWalk k r s with
      casc := { s.casc with agreement := some { a with own := some .done, applied := 0, unrestored := 0 } }
      mgmt := { s.mgmt with
        result := some ⟨.rollback, .cascade, .done, some k, 0, 0, some a.id⟩
        latches := s.mgmt.latches ||| 0x002 } } := by
  obtain ⟨w, target, applied, ends⟩ := startWalk_empty found range empty zero
  rw [ends, reportWalk_follower (a := a) (by exact follower) (by exact ha)]
  simp [walkNoted, walkResult, resultOutcome, target, applied, empty, zero, emptyWalk]

theorem startWalk_emptyLeader (found : findCkpt k s = some r) (range : s.log.head = r.mark)
    (empty : s.restore.unrestored = []) (zero : s.restore.overflow = 0) (leader : s.casc.role = .leader)
    (ha : s.casc.agreement = some a) : startWalk k s = { emptyWalk k r s with
      casc := { s.casc with agreement := some { a with own := some .done, applied := 0, unrestored := 0 } } } := by
  obtain ⟨w, target, applied, ends⟩ := startWalk_empty found range empty zero
  rw [ends, reportWalk_leader (a := a) (by exact leader) (by exact ha)]
  simp [walkNoted, applied, empty, zero, emptyWalk]

/-! ## The take of a GO (R13, R4) -/

/-- The checkpoint number after a take's. -/
def numberAfter (number : CkptNumber) : CkptNumber := if number = 65535 then 1 else number + 1

/-- The result of an agreed take at a follower. -/
def agreedTake (id : OpId) (o : ResultOutcome) (number : CkptNumber) (m : Mgmt) : Mgmt := { m with
  result := some ⟨.take, .cascade, o, some number, 0, 0, some id⟩
  latches := m.latches ||| 0x001 }

theorem succNumber_eq (number : CkptNumber) : succNumber number = numberAfter number := by simp [succNumber, numberAfter]

theorem agreedTake_fields (o : ResultOutcome) (s : State) :
    latch .takeDone (writeResult (takeResult .cascade o (some number) (some id)) s)
      = { s with mgmt := agreedTake id o number s.mgmt } := rfl

theorem failApply_fields (ha : s.casc.agreement = some a) : failApply id number s = { s with
    casc := { s.casc with agreement := some { a with own := some .failed } }
    ckpt := { s.ckpt with nextNumber := numberAfter number, fence := false, ctrl := .idle }
    mgmt := agreedTake id .refused number s.mgmt } := by
  simp only [failApply, succNumber_eq, agreedTake_fields, standDown_fields, State.onCkpt]
  rw [modAgreement_some (a := a) (by exact ha)]

/-- An agreed take applied to a stack with room, or relieved of its oldest record (R14). -/
theorem applyTake_fields (ha : s.casc.agreement = some a) (stack : List CkptRecord) (log : Log)
    (space : (s.ckpt.stack.length < 8 ∧ stack = s.ckpt.stack ∧ log = s.log)
      ∨ (8 ≤ s.ckpt.stack.length ∧ s.ckpt.rolling = true ∧ s.log.waitList = [] ∧ stack = s.ckpt.stack.drop 1
        ∧ log = { s.log with
          tail := match (s.ckpt.stack.drop 1).head? with
            | some r => r.mark
            | none => s.log.head
          stallClock := 0 })) :
    ((∀ r ∈ stack, r.number ≠ number) → applyTake id number s = { s with
      casc := { s.casc with agreement := some { a with own := some .done } }
      ckpt := { s.ckpt with
        stack := stack ++ [⟨number, s.log.head, .live, 0, .cascade⟩], nextNumber := numberAfter number
        generation := s.ckpt.generation + 1, fence := false, ctrl := .idle }
      filter := if s.ckpt.generation = 65535 then [] else s.filter
      log := log
      mgmt := agreedTake id .done number s.mgmt })
    ∧ ((∃ r ∈ stack, r.number = number) → applyTake id number s = { s with
      casc := { s.casc with agreement := some { a with own := some .failed } }
      ckpt := { s.ckpt with stack := stack, nextNumber := numberAfter number, fence := false, ctrl := .idle }
      log := log
      mgmt := agreedTake id .refused number s.mgmt }) := by
  have relieved : (if stackFull s = true then releaseOldest 1 s else s)
      = { s with ckpt := { s.ckpt with stack := stack }, log := log } := by
    rcases space with ⟨room, rfl, rfl⟩ | ⟨full, -, waiting, rfl, rfl⟩
    · rw [if_neg (by simp [stackFull]; omega)]
    · rw [if_pos (by simpa [stackFull] using full), releaseOldest_eq, serveWaitList_nil (by exact waiting)]
      simp only [waiting]
      rfl
  have taken : ¬ (stackFull s = true ∧ s.ckpt.rolling = false) := by
    rintro ⟨full, notRolling⟩
    rcases space with ⟨room, -⟩ | ⟨-, rolling, -⟩
    · simp [stackFull] at full
      omega
    · simp [rolling] at notRolling
  have head : log.head = s.log.head := by
    rcases space with ⟨-, -, rfl⟩ | ⟨-, -, -, -, rfl⟩
    · rfl
    · rfl
  refine ⟨fun free => ?_, fun held => ?_⟩
  · simp only [applyTake, if_neg taken, relieved]
    rw [if_neg (by simpa [numberHeld] using free), agreedTake_fields, pushCkpt_fields, modAgreement_some (a := a) (by exact ha)]
    simp only [head]
    rfl
  · simp only [applyTake, if_neg taken, relieved]
    rw [if_pos (by simpa [numberHeld] using held), failApply_fields (by exact ha)]

theorem applyTake_full (ha : s.casc.agreement = some a) (full : 8 ≤ s.ckpt.stack.length) (fixed : s.ckpt.rolling = false) :
    applyTake id number s = { s with
      casc := { s.casc with agreement := some { a with own := some .failed } }
      ckpt := { s.ckpt with nextNumber := numberAfter number, fence := false, ctrl := .idle }
      mgmt := agreedTake id .refused number s.mgmt } := by
  rw [applyTake, if_pos ⟨by simpa [stackFull] using full, fixed⟩, failApply_fields ha]

/-! ## GO -/

theorem goReceived_handled (h : inReset s = false) (follower : s.casc.role = .follower) (nonzero : number ≠ 0) :
    exec (.goReceived .up id number) s = .next (handleGo id number s) := by
  rw [exec_goReceived h, receive_handled (sideUsed_up follower) (go_wellFormed nonzero)]

theorem handleGo_stray (other : ∀ a, s.casc.agreement = some a → a.id ≠ id) : handleGo id number s = strayGo id s := by
  unfold handleGo
  split
  · rename_i a ha
    rw [if_neg fun same => other a ha same.symm]
  · rfl

theorem handleGo_late (ha : s.casc.agreement = some a) (late : a.go = true ∨ a.readySent ≠ .ok) :
    handleGo a.id number s = faulted s := by
  have phase : ¬ (isAgreeing s = true ∧ a.readySent = .ok ∧ a.go = false) := by
    rintro ⟨-, sent, go⟩
    rcases late with late | late
    · simp [late] at go
    · exact late sent
  simp only [handleGo, ha, if_true, if_neg phase, latch_cascadeFault]

/-- The cascade part of a follower that took GO (R169). -/
def goTaken (a : Agreement) (number : CkptNumber) (c : Cascade) : Cascade := { c with
  agreement := some { a with go := true, timer := none }
  downList := if c.last then c.downList else c.downList ++ [.go a.id number] }

/-- What GO runs at a follower: the take, or the walk to the record's target (R169). -/
def goRun (a : Agreement) (number : CkptNumber) (s : State) : State :=
  match a.goal with
  | .take => applyTake a.id number s
  | .rollback k => startWalk k s

theorem goRun_take (goal : a.goal = .take) : goRun a number s = applyTake a.id number s := by simp only [goRun, goal]

theorem goRun_rollback (goal : a.goal = .rollback k) : goRun a number s = startWalk k s := by simp only [goRun, goal]

theorem applyGo_run (a : Agreement) (number : CkptNumber) (s : State) : applyGo a number s = goRun a number
    (forwardDown (.go a.id number) (modAgreement (fun a => { a with go := true, timer := none }) s)) := rfl

/-- A GO the follower awaits is applied. -/
theorem handleGo_awaited (ha : s.casc.agreement = some a) (agreeing : isAgreeing s = true) (sent : a.readySent = .ok)
    (go : a.go = false) : handleGo a.id number s = portFollow (controlFollow s (applyGo a number s)) := by
  simp only [handleGo, ha, if_true, if_pos (And.intro agreeing (And.intro sent go))]

theorem applyGo_room (ha : s.casc.agreement = some a) (room : s.casc.downList.length < 4) :
    applyGo a number s = goRun a number { s with casc := goTaken a number s.casc } := by
  rw [applyGo_run, modAgreement_some ha, forwardDown_room (by exact room)]
  rfl

/-- What the outcome of this unit leads to at a follower: the last of the chain sends DONE, another awaits it
(R170). -/
theorem follow_ownOutcome {b : Agreement} (busy : ChannelsBusy s) (idle : ∀ g src, u.ckpt.ctrl ≠ .settling g src)
    (follower : u.casc.role = .follower) (hb : u.casc.agreement = some b) (go : b.go = true) (own : b.own = some o)
    (below : b.belowDone = none) (room : u.casc.upList.length < 4) (channel : u.down.channel = s.down.channel)
    (up : u.up = s.up) : portFollow (controlFollow s u) = { u with
      casc := if u.casc.last then { u.casc with agreement := none, upList := u.casc.upList ++ [.done b.id o] } else u.casc } := by
  have sends : cascadeFollow u = { u with
      casc := if u.casc.last then { u.casc with agreement := none, upList := u.casc.upList ++ [.done b.id o] } else u.casc } := by
    rw [cascadeFollow_followerAfterGo follower hb go]
    cases last : u.casc.last
    · exact doneSend_waits hb own last below
    · rw [doneSend_sends follower hb go own (.inl last) room, below]
      simp [worse_self]
  rw [controlFollow, settle_elsewhere idle, sends, triggerCheck_idle (.inr (dueSource_follower ?_)), ite_self, portFollow_busy ?_]
  · exact ⟨by rw [← busy.1, ← channel], by rw [← busy.2, ← up]⟩
  · simp only
    split_ifs
    · exact follower
    · exact follower

end

/-- Settles O57: a stray or late GO, the take applied or refused, the walk begun or ended at once. -/
theorem followerGo : Obligations.FollowerGo := by
  intro s id number h follower nonzero busy upRoom downRoom go down casc next
  have handled : go = .next (handleGo id number s) := goReceived_handled h follower nonzero
  refine ⟨fun stray => ?_, ?_, ?_⟩
  · have other : ∀ a, s.casc.agreement = some a → a.id ≠ id := by
      intro a ha
      rcases stray with none | ⟨b, hb, other⟩
      · exact absurd (none.symm.trans ha) nofun
      · obtain rfl : a = b := Option.some.inj (ha.symm.trans hb)
        exact other
    rw [handled, handleGo_stray other, strayGo, produce_up (by exact upRoom), forwardDown_room (by exact downRoom)]
    rfl
  · rintro a ha rfl late
    rw [handled, handleGo_late ha late]
    rfl
  · rintro a src ha rfl unsent sent below failed
    let taken : State := { s with casc := goTaken a number s.casc }
    have agreed {g : Goal} (ctrl : s.ckpt.ctrl = .agreeing g src) : isAgreeing s = true := by simp [isAgreeing, ctrl]
    have ends {u : State} {a' : Agreement} {o : DoneOutcome} (agreeing : isAgreeing s = true)
        (applied : goRun a number taken = u)
        (noted : u.casc = { taken.casc with agreement := some { a' with go := true, timer := none, own := some o } })
        (same : a'.id = a.id) (awaits : a'.belowDone = none) (idle : ∀ g src, u.ckpt.ctrl ≠ .settling g src)
        (downs : u.down = s.down) (ups : u.up = s.up) : go = .next { u with casc := casc a' o } := by
      have run := follow_ownOutcome (s := s) (b := { a' with go := true, timer := none, own := some o }) busy idle
        (by rw [noted]; exact follower) (by rw [noted]) rfl rfl awaits (by rw [noted]; exact upRoom) (by rw [downs]) ups
      rw [handled, handleGo_awaited ha agreeing sent unsent, applyGo_room ha downRoom]
      refine congrArg _ ((congrArg portFollow (congrArg _ applied)).trans (run.trans ?_))
      rw [noted]
      have kept : taken.casc.last = s.casc.last := rfl
      simp only [casc, same, kept]
      split_ifs
      · rfl
      · rfl
    refine ⟨fun stack log ctrl goal space => ⟨fun free => ?_, fun held => ?_⟩, fun ctrl goal full fixed => ?_,
      fun k r ctrl goal own found range empty zero => ?_, fun k r ctrl goal own found range => ?_⟩
    · have applied := (applyTake_fields (s := taken) (id := a.id) (number := number) rfl stack log space).1 free
      exact ends (a' := a) (agreed ctrl) ((goRun_take goal).trans applied) rfl rfl below nofun rfl rfl
    · have applied := (applyTake_fields (s := taken) (id := a.id) (number := number) rfl stack log space).2 held
      exact ends (a' := a) (agreed ctrl) ((goRun_take goal).trans applied) rfl rfl below nofun rfl rfl
    · have applied := applyTake_full (s := taken) (id := a.id) (number := number) rfl full fixed
      exact ends (a' := a) (agreed ctrl) ((goRun_take goal).trans applied) rfl rfl below nofun rfl rfl
    · have applied := startWalk_emptyFollower (s := taken) found range empty zero follower rfl
      exact ends (a' := { a with applied := 0, unrestored := 0 }) (agreed ctrl)
        ((goRun_rollback goal).trans applied) rfl rfl below nofun rfl rfl
    · have applied := startWalk_requests (s := taken) found range
      rw [handled, handleGo_awaited ha (agreed ctrl) sent unsent, applyGo_room ha downRoom]
      refine congrArg _ ((congrArg portFollow (congrArg _ ((goRun_rollback goal).trans applied))).trans (follow_still ?_ ?_ ?_ ?_))
      · exact settle_elsewhere nofun
      · exact cascadeFollow_notDue (noSendDue_follower (by exact follower) rfl (.inr ⟨rfl, .inl own⟩))
      · exact .inr (.inl (longOp_of_ctrl nofun))
      · exact portFollow_busy busy

end Sys2Proof.Machine
end

section
/-! LEADER_GO and READY_OK_SEND. -/

namespace Sys2Proof.Machine

-- One declaration at a time: elaborated in parallel, many quick ones exceed the memory limit.
set_option Elab.async false

section
variable {s u : State} {a b : Agreement} {k : CkptNumber} {r : CkptRecord}

/-! ## GO of a leader (R163) -/

theorem leaderGo_none (free : s.casc.agreement = none) : leaderGo s = s := by simp [leaderGo, free]

theorem leaderGo_notReady (ha : s.casc.agreement = some a)
    (waits : ¬ (s.casc.role = .leader ∧ a.settled = true ∧ a.below = .ok ∧ a.go = false)) : leaderGo s = s := by
  simp only [leaderGo, ha, if_neg waits]

/-- GO for a take: the push of the number it assigns. -/
theorem leaderGo_take (ha : s.casc.agreement = some a)
    (ready : s.casc.role = .leader ∧ a.settled = true ∧ a.below = .ok ∧ a.go = false) (goal : a.goal = .take)
    (room : s.casc.downList.length < 4) : leaderGo s = { s with
      casc := { s.casc with
        agreement := some { a with go := true, own := some .done, pushed := some (assignedNumber s) }
        downList := s.casc.downList ++ [.go a.id (assignedNumber s)] }
      ckpt := { s.ckpt with
        stack := s.ckpt.stack ++ [⟨assignedNumber s, s.log.head, .live, 0, a.source⟩]
        nextNumber := if assignedNumber s = 65535 then 1 else assignedNumber s + 1
        generation := s.ckpt.generation + 1, fence := false, ctrl := .idle }
      filter := if s.ckpt.generation = 65535 then [] else s.filter } := by
  have sent : leaderGo s = goTake a s := by simp only [leaderGo, ha, if_pos ready, goal]
  rw [sent]
  simp only [goTake, produce_down room, pushCkpt_fields]
  rw [modAgreement_some (by exact ha)]

/-- The leader's state once GO for a rollback is sent. -/
def goneOut (a : Agreement) (k : CkptNumber) (s : State) : State := { s with casc := { s.casc with
  agreement := some { a with go := true }, downList := s.casc.downList ++ [.go a.id k] } }

/-- GO for a rollback: the walk begins. -/
theorem leaderGo_rollback (ha : s.casc.agreement = some a)
    (ready : s.casc.role = .leader ∧ a.settled = true ∧ a.below = .ok ∧ a.go = false) (goal : a.goal = .rollback k)
    (room : s.casc.downList.length < 4) : leaderGo s = startWalk k (goneOut a k s) := by
  have sent : leaderGo s = goRollback a k s := by simp only [leaderGo, ha, if_pos ready, goal]
  rw [sent]
  simp only [goRollback, produce_down room]
  rw [modAgreement_some (by exact ha)]
  rfl

/-- A GO that leaves the leader awaiting DONE ends its step. -/
theorem exec_leaderGo_awaits (h : inReset s = false) (sent : leaderGo s = u) (leader : u.casc.role = .leader)
    (hb : u.casc.agreement = some b) (below : b.belowDone = none) (still : PortsStill u) : exec .leaderGo s = .next u := by
  rw [exec_leaderGo h, sent, agreementEnd_waits hb below, longOp_leader leader hb, Bool.not_true, Bool.and_false,
    if_neg Bool.false_ne_true, portFollow_still still]

/-- No GO, no step. -/
theorem exec_leaderGo_unsent (h : inReset s = false) (unsent : leaderGo s = s) (ends : agreementEnd s = s)
    (still : PortsStill s) : exec .leaderGo s = .next s := by
  rw [exec_leaderGo h, unsent, ends, Bool.and_not_self, if_neg Bool.false_ne_true, portFollow_still still]

/-! ## READY(OK) of a follower (R167) -/

theorem readyOk_none (free : s.casc.agreement = none) : readyOk s = s := by simp [readyOk, free]

theorem readyOk_notReady (ha : s.casc.agreement = some a)
    (waits : ¬ (s.casc.role = .follower ∧ a.settled = true ∧ (a.below = .ok ∨ a.below = .notNeeded)
      ∧ a.readySent = .none ∧ a.go = false)) : readyOk s = s := by
  simp only [readyOk, ha, if_neg waits]

end

/-- Settles O59: GO and READY(OK) where they are due, and nothing sent where they are not. -/
theorem goAndReadySends : Obligations.GoAndReadySends := by
  intro s h still
  refine ⟨fun free => ⟨?_, ?_⟩, ?_⟩
  · exact exec_leaderGo_unsent h (leaderGo_none free) (by simp [agreementEnd, free]) still
  · rw [exec_readyOkSend h, readyOk_none free]
  · intro a ha go own ready
    refine ⟨fun waits => ?_, fun waits => ?_, fun due follower unsent room => ?_, fun due leader room below => ?_⟩
    · refine exec_leaderGo_unsent h (leaderGo_notReady ha ?_) (agreementEnd_beforeGo ha go) still
      rintro ⟨leader, settled, ok, -⟩
      rcases waits with waits | follower
      · exact waits ⟨settled, .inl ok⟩
      · exact follower leader
    · rw [exec_readyOkSend h, readyOk_notReady ha]
      rintro ⟨follower, settled, below, unsent, -⟩
      rcases waits with waits | leader | sent
      · exact waits ⟨settled, below.imp_right fun notNeeded => ⟨follower, notNeeded⟩⟩
      · exact leader follower
      · exact sent unsent
    · obtain ⟨settled, below⟩ := due
      rw [exec_readyOkSend h, readyOk_sends follower ha settled (below.imp_right And.right) unsent go room]
    · have leads : s.casc.role = .leader ∧ a.settled = true ∧ a.below = .ok ∧ a.go = false := by
        obtain ⟨settled, ok | ⟨follower, -⟩⟩ := due
        · exact ⟨leader, settled, ok, go⟩
        · simp [leader] at follower
      refine ⟨fun goal => ?_, fun k r goal found range empty zero => ?_, fun k r goal found range => ?_⟩
      · exact exec_leaderGo_awaits h (leaderGo_take ha leads goal room) leader rfl below still
      · have walked := startWalk_emptyLeader (s := goneOut a k s) found range empty zero leader rfl
        exact exec_leaderGo_awaits h ((leaderGo_rollback ha leads goal room).trans walked) leader rfl below still
      · have walked := startWalk_requests (s := goneOut a k s) found range
        exact exec_leaderGo_awaits h ((leaderGo_rollback ha leads goal room).trans walked) leader rfl below still

end Sys2Proof.Machine
end

section
/-! DONE from below, and DONE_SEND. -/

namespace Sys2Proof.Machine

-- One declaration at a time: elaborated in parallel, many quick ones exceed the memory limit.
set_option Elab.async false

section
variable {s : State} {a : Agreement} {id : OpId} {o x : DoneOutcome}

/-! ## The outcome taken from below (R164, R170) -/

/-- The outcome a DONE counts as: FAILED for one that a take cannot have. -/
def outcomeTaken (g : Goal) (o : DoneOutcome) : DoneOutcome := if g = .take ∧ (o = .partly ∨ o = .corrupt) then .failed else o

/-- The management part after a DONE: CASCADE_FAULT for an outcome that a take cannot have. -/
def outcomeMgmt (g : Goal) (o : DoneOutcome) (m : Mgmt) : Mgmt := { m with
  latches := if g = .take ∧ (o = .partly ∨ o = .corrupt) then m.latches ||| 0x200 else m.latches }

theorem outcomeAllowed_iff {g : Goal} : outcomeAllowed g o = true ↔ ¬ (g = .take ∧ (o = .partly ∨ o = .corrupt)) := by
  cases g <;> cases o <;> simp [outcomeAllowed]

/-- The state once the outcome from below is taken. -/
def belowNoted (a : Agreement) (o : DoneOutcome) (s : State) : State := { s with
  casc := { s.casc with agreement := some { a with belowDone := some (outcomeTaken a.goal o) } }
  mgmt := outcomeMgmt a.goal o s.mgmt }

theorem takeBelowDone_noted (ha : s.casc.agreement = some a) : takeBelowDone a o s = belowNoted a o s := by
  rw [takeBelowDone, belowNoted, outcomeTaken, outcomeMgmt]
  by_cases wrong : a.goal = .take ∧ (o = .partly ∨ o = .corrupt)
  · rw [if_neg (mt outcomeAllowed_iff.mp (not_not.mpr wrong)), if_pos wrong, if_pos wrong, modAgreement_some (by exact ha)]
    rfl
  · rw [if_pos (outcomeAllowed_iff.mpr wrong), if_neg wrong, if_neg wrong, modAgreement_some ha]

/-- The send a change of the cascade part leads to, and nothing more, while no settle is due. -/
theorem chain_sends {t u : State} (busy : ChannelsBusy s) (settles : NoSettleDue s) (sends : cascadeFollow t = u)
    (notDue : dueSource u = none) (ctrl : t.ckpt.ctrl = s.ckpt.ctrl := by rfl) (entries : t.entries = s.entries := by rfl)
    (cls : t.cls = s.cls := by rfl) (channel : u.down.channel = s.down.channel := by rfl) (up : u.up = s.up := by rfl) :
    portFollow (controlFollow s t) = u := by
  rw [controlFollow, settle_notDue settles ctrl entries cls, sends, triggerCheck_idle (.inr notDue), ite_self,
    portFollow_busy ⟨by rw [channel]; exact busy.1, by rw [up]; exact busy.2⟩]

/-- A leader's agreement ended with both outcomes known (R164). -/
def agreementEnded (a : Agreement) (o x : DoneOutcome) (s : State) : State := { s with
  casc := { s.casc with agreement := none }
  mgmt := { outcomeMgmt a.goal o s.mgmt with
    result := some (match a.goal with
      | .take => ⟨.take, a.source, resultOutcome (worse x (outcomeTaken .take o)), a.pushed, 0, 0, some a.id⟩
      | .rollback k => ⟨.rollback, a.source, resultOutcome (worse x o), some k, a.applied, a.unrestored, some a.id⟩)
    latches := (outcomeMgmt a.goal o s.mgmt).latches ||| (if a.goal = .take then 0x001 else 0x002) } }

theorem cascadeFollow_belowNoted (leader : s.casc.role = .leader) (go : a.go = true) (own : a.own = some x) :
    cascadeFollow (belowNoted a o s) = agreementEnded a o x s := by
  rw [cascadeFollow_leaderAfterGo (a := { a with belowDone := some (outcomeTaken a.goal o) }) (by exact leader) rfl go,
    agreementEnd_ends (a := { a with belowDone := some (outcomeTaken a.goal o) }) (by exact leader) rfl go own rfl]
  unfold agreementEnded belowNoted agreementResult
  cases a.goal <;> rfl

/-! ## DONE at a leader (R164, R165) -/

theorem doneReceived_leader (h : inReset s = false) (leader : s.casc.role = .leader) :
    exec (.doneReceived .down id o) s = .next (portFollow (controlFollow s (leaderDone id o s))) := by
  rw [exec_doneReceived h, receive_handled (sideUsed_down (.inl leader)) rfl, handleDone, if_pos leader]

theorem leaderDone_none (free : s.casc.agreement = none) :
    leaderDone id o s = if id = s.casc.opId then s else faulted s := by
  simp only [leaderDone, free, latch_cascadeFault]

theorem leaderDone_stray (ha : s.casc.agreement = some a) (stray : id ≠ a.id ∨ a.go = false) : leaderDone id o s = faulted s := by
  simp only [leaderDone, ha, latch_cascadeFault]
  split_ifs with same go
  · exact absurd stray (by simp [same, go])
  · exact absurd stray (by simp [same, go])
  · rfl
  · rfl

/-- A second DONE is discarded (log 11). -/
theorem leaderDone_second (ha : s.casc.agreement = some a) (go : a.go = true) (below : a.belowDone.isSome = true) :
    leaderDone a.id o s = s := by
  simp only [leaderDone, ha, if_true, go, below]

theorem leaderDone_first (ha : s.casc.agreement = some a) (go : a.go = true) (below : a.belowDone = none) :
    leaderDone a.id o s = belowNoted a o s := by
  simp only [leaderDone, ha, if_true, go, below, Option.isSome_none, Bool.false_eq_true, if_false]
  exact takeBelowDone_noted ha

/-! ## DONE at a follower (R170, R171) -/

theorem doneReceived_follower (h : inReset s = false) (follower : s.casc.role = .follower) (last : s.casc.last = false) :
    exec (.doneReceived .down id o) s = .next (portFollow (controlFollow s (followerDone id o s))) := by
  rw [exec_doneReceived h, receive_handled (sideUsed_down (.inr ⟨follower, last⟩)) rfl, handleDone,
    if_neg (by simp [follower])]

theorem followerDone_none (free : s.casc.agreement = none) : followerDone id o s
    = if s.casc.abandoned = some id then produce (.done id .failed) .up s else faulted s := by
  simp only [followerDone, free, latch_cascadeFault]

theorem followerDone_other (ha : s.casc.agreement = some a) (other : id ≠ a.id) : followerDone id o s
    = if s.casc.abandoned = some id then produce (.done id .failed) .up s else faulted s := by
  simp only [followerDone, ha, if_neg other, latch_cascadeFault]

theorem followerDone_first (ha : s.casc.agreement = some a) (go : a.go = true) (below : a.belowDone = none) :
    followerDone a.id o s = belowNoted a o s := by
  simp only [followerDone, ha, if_true, go, below, Option.isNone_none, and_self]
  exact takeBelowDone_noted ha

/-- A DONE before GO, or a second one (R171). -/
theorem followerDone_wrongPhase (ha : s.casc.agreement = some a) (wrong : a.go = false ∨ a.belowDone.isSome = true) :
    followerDone a.id o s = faulted s := by
  have phase : ¬ (a.go = true ∧ a.belowDone.isNone = true) := by
    rintro ⟨go, none⟩
    rcases wrong with unsent | known
    · simp [unsent] at go
    · rw [Option.isNone_iff_eq_none] at none
      simp [none] at known
  simp only [followerDone, ha, if_true, if_neg phase, latch_cascadeFault]

theorem exec_doneSend (h : inReset s = false) : exec .doneSend s = .next (doneSend s) := event_taken (f := doneSend) h

theorem doneSend_notDue (ha : s.casc.agreement = some a)
    (waits : a.go = false ∨ a.own = none ∨ (s.casc.last = false ∧ a.belowDone = none)) : doneSend s = s := by
  cases own : a.own with
  | none => simp only [doneSend, ha, own]
  | some x =>
    simp only [doneSend, ha, own]
    rw [if_neg]
    rintro ⟨-, go, known⟩
    rcases waits with unsent | none | ⟨last, below⟩
    · simp [unsent] at go
    · simp [own] at none
    · simp [last, below] at known

end

/-- Settles O58: DONE at a leader, at a follower, and the DONE a follower sends. -/
theorem donePassedUp : Obligations.DonePassedUp := by
  intro s id o h busy flags settles room got latches faults abandoned wrong taken mgmt noted
  have notedIs (a : Agreement) : noted a = belowNoted a o s := rfl
  have unflagged {t : State} (ckpt : t.ckpt = s.ckpt) : dueSource t = none :=
    dueSource_noFlags (by rw [NoFlags, ckpt]; exact flags)
  refine ⟨fun leader => ?_, fun follower => ⟨fun last => ?_, ?_⟩⟩
  · have received : got = .next (portFollow (controlFollow s (leaderDone id o s))) := doneReceived_leader h leader
    rw [received]
    refine ⟨fun free => ?_, fun a ha => ⟨fun stray early open_ => ?_, ?_, ?_⟩⟩
    · rw [leaderDone_none free]
      exact congrArg _ (judged_still busy settles fun a ha => absurd (free.symm.trans ha) nofun)
    · have sends : NoSendDue s := by
        refine noSendDue_leader leader ha ?_
        cases go : a.go
        · exact .inl ⟨rfl, by simpa [go] using early⟩
        · exact .inr ⟨rfl, by simpa [go] using open_⟩
      rw [leaderDone_stray ha stray, faulted_still busy settles sends]
      rfl
    · rintro rfl go own known
      rw [leaderDone_second ha go known, follow_notDue busy (noSendDue_leader leader ha (.inr ⟨go, .inl own⟩)) rfl rfl rfl rfl
        (settle_none settles)]
    · rintro rfl go below
      rw [leaderDone_first ha go below]
      refine ⟨fun own => ?_, fun x own => ?_⟩
      · exact congrArg _ (chain_still busy settles (noSendDue_leader leader rfl (.inr ⟨go, .inl own⟩)) (.inr (unflagged rfl)))
      · exact congrArg _ (chain_sends busy settles (cascadeFollow_belowNoted leader go own) (unflagged rfl))
  · have received : got = .next (portFollow (controlFollow s (followerDone id o s))) := doneReceived_follower h follower last
    rw [received]
    have judged (sends : NoSendDue s) (sends' : NoSendDue abandoned) :
        portFollow (controlFollow s (if s.casc.abandoned = some id then produce (.done id .failed) .up s else faulted s))
          = if s.casc.abandoned = some id then abandoned else faults := by
      rw [produce_up room]
      split_ifs
      · exact chain_still (t := abandoned) busy settles sends' (.inr (unflagged rfl))
      · exact faulted_still busy settles sends
    refine ⟨fun free => ?_, fun a ha => ⟨?_, fun idle => ?_⟩⟩
    · rw [followerDone_none free]
      have none (b : Agreement) (hb : s.casc.agreement = some b) : False := absurd (free.symm.trans hb) nofun
      exact congrArg _ (judged (fun b hb => (none b hb).elim) fun b hb => (none b hb).elim)
    · rintro rfl go below
      rw [followerDone_first ha go below]
      refine ⟨fun own => ?_, fun x own => ?_⟩
      · exact congrArg _ (chain_still busy settles (noSendDue_follower follower rfl (.inr ⟨go, .inl own⟩)) (.inr (unflagged rfl)))
      · refine congrArg _ (chain_sends busy settles ((cascadeFollow_followerAfterGo (s := belowNoted a o s) follower rfl go).trans
          (doneSend_sends (s := belowNoted a o s) follower rfl go own (.inr rfl) room)) (unflagged rfl))
    · have waits : (a.go = false ∧ (a.settled = false ∨ a.readySent ≠ .none ∨ (a.below ≠ .ok ∧ a.below ≠ .notNeeded)))
          ∨ (a.go = true ∧ (a.own = none ∨ (a.belowDone = none ∧ s.casc.last = false))) :=
        idle.imp_right fun ⟨go, open_⟩ => ⟨go, open_.imp_right fun below => ⟨below, last⟩⟩
      have sends : NoSendDue s := noSendDue_follower follower ha waits
      refine ⟨?_, fun other => ?_⟩
      · rintro rfl wrong
        rw [followerDone_wrongPhase ha wrong, faulted_still busy settles sends]
        rfl
      · rw [followerDone_other ha other]
        exact congrArg _ (judged sends (noSendDue_follower (a := a) follower (by exact ha) waits))
  · intro a ha answer
    rw [exec_doneSend h]
    refine ⟨fun waits => by rw [doneSend_notDue ha waits], fun x go own => ⟨fun b below => ?_, fun last below => ?_⟩⟩
    · rw [doneSend_sends follower ha go own (.inr (by simp [below])) room, below]
      rfl
    · rw [doneSend_sends follower ha go own (.inl last) room, below]
      simp [worse_self, answer]

end Sys2Proof.Machine
end

section
/-! Commands on a full send list: all but the list and CASCADE_FAULT is as with room on it. -/

namespace Sys2Proof.Machine

-- One declaration at a time: elaborated in parallel, many quick ones exceed the memory limit.
set_option Elab.async false

/-! ## The send list of a side -/

section
variable {s y t : State} {side : Side} {m : Message} {l : List Message} {T f g : State → State}

/-- The state with another send list on a side. -/
def holding (side : Side) (l : List Message) (x : State) : State := { x with casc := match side with
  | .up => { x.casc with upList := l }
  | .down => { x.casc with downList := l } }

theorem holding_own (side : Side) (s : State) : holding side (sendList side s.casc) s = s := by
  cases side
  · rfl
  · rfl

theorem holding_holding (l l' : List Message) (s : State) : holding side l (holding side l' s) = holding side l s := by
  cases side
  · rfl
  · rfl

theorem sendList_holding : sendList side (holding side l s).casc = l := by
  cases side
  · rfl
  · rfl

/-- What a full list l makes of the state y that a send on the empty list leads to (R158). -/
def onFull (side : Side) (m : Message) (l : List Message) (y : State) : State :=
  if (l.drop 1).any isAsk then holding side (l.take 1 ++ (l.drop 1).filter (fun x => !isAsk x) ++ [m]) y
  else holding side l (faulted y)

theorem produce_empty : produce m side (holding side [] s) = holding side [m] s := by
  cases side
  · exact produce_up (by exact Nat.zero_lt_succ 3)
  · exact produce_down (by exact Nat.zero_lt_succ 3)

theorem produce_full (full : 4 ≤ l.length) : produce m side (holding side l s) = onFull side m l (holding side [m] s) := by
  cases side
  · exact produce_up_full full
  · exact produce_down_full full

/-! ## Operations that the send list and the alert do not matter to -/

/-- A change of a side's send list, with or without CASCADE_FAULT. -/
def Shadow (side : Side) (T : State → State) : Prop :=
  (∃ l, T = holding side l) ∨ ∃ l, T = fun y => holding side l (faulted y)

theorem shadow_onFull : Shadow side (onFull side m l) := by
  by_cases ask : (l.drop 1).any isAsk = true
  · exact .inl ⟨_, funext fun y => if_pos ask⟩
  · exact .inr ⟨_, funext fun y => if_neg ask⟩

/-- The operation f does at y the same whatever the send list of the side and CASCADE_FAULT. -/
def Commutes (side : Side) (f : State → State) (y : State) : Prop := ∀ T, Shadow side T → f (T y) = T (f y)

theorem Commutes.comp (outer : Commutes side f (g y)) (inner : Commutes side g y) : Commutes side (fun x => f (g x)) y :=
  fun T shadow => (congrArg f (inner T shadow)).trans (outer T shadow)

theorem Commutes.holding (commutes : Commutes side f y) (l : List Message) : f (holding side l y) = Machine.holding side l (f y) :=
  commutes _ (.inl ⟨l, rfl⟩)

/-- A step that sends one message, between operations that the list does not matter to, on a full list. -/
theorem step_onFull {c : Instr} {pre post : State → State}
    (run : ∀ l, exec c (holding side l s) = .next (post (produce m side (pre (holding side l s)))))
    (before : Commutes side pre s) (after : Commutes side post (holding side [m] (pre s)))
    (full : 4 ≤ (sendList side s.casc).length) (stepped : exec c (holding side [] s) = .next t) :
    exec c s = .next (onFull side m (sendList side s.casc) t) := by
  have room : t = post (holding side [m] (pre s)) := by
    rw [run, before.holding, produce_empty] at stepped
    exact (Host.Outcome.next.inj stepped).symm
  have own := run (sendList side s.casc)
  rw [before.holding, holding_own, produce_full full, after _ shadow_onFull] at own
  rw [own, room]

/-! ## The parts a send list does not matter to -/

theorem commutes_id : Commutes side id y := fun _ _ => rfl

theorem or_swap (x a b : BitVec 10) : x ||| a ||| b = x ||| b ||| a := by
  rw [BitVec.or_assoc, BitVec.or_comm a, ← BitVec.or_assoc]

theorem latch_commutes (c : AlertCause) : Commutes side (latch c) y := by
  rintro T (⟨l, rfl⟩ | ⟨l, rfl⟩)
  · rfl
  · simp only [latch, State.onMgmt, faulted, holding, or_swap _ 0x200]

theorem writeResult_commutes (r : OpResult) : Commutes side (writeResult r) y := by
  rintro T (⟨l, rfl⟩ | ⟨l, rfl⟩)
  · rfl
  · rfl

theorem onCkpt_commutes (f : Controller → Controller) : Commutes side (State.onCkpt · f) y := by
  rintro T (⟨l, rfl⟩ | ⟨l, rfl⟩)
  · rfl
  · rfl

theorem standDown_commutes : Commutes side standDown y := by
  rintro T (⟨l, rfl⟩ | ⟨l, rfl⟩)
  · rfl
  · rfl

theorem modAgreement_commutes (f : Agreement → Agreement) : Commutes side (modAgreement f) y := by
  rintro T (⟨l, rfl⟩ | ⟨l, rfl⟩) <;> cases side <;> rfl

theorem dropAgreement_commutes : Commutes side dropAgreement y := by
  rintro T (⟨l, rfl⟩ | ⟨l, rfl⟩) <;> cases side <;> rfl

theorem setAbandoned_commutes (id : OpId) : Commutes side (setAbandoned id) y := by
  rintro T (⟨l, rfl⟩ | ⟨l, rfl⟩) <;> cases side <;> rfl

theorem faulted_commutes : Commutes side faulted y := by
  rintro T (⟨l, rfl⟩ | ⟨l, rfl⟩)
  · rfl
  · rfl

theorem endBeforeGo_commutes (a : Agreement) (o : ResultOutcome) : Commutes side (endBeforeGo a o) y :=
  dropAgreement_commutes.comp ((latch_commutes _).comp ((writeResult_commutes _).comp standDown_commutes))

theorem leaveAgreement_commutes (a : Agreement) (o : ResultOutcome) : Commutes side (leaveAgreement a o) y :=
  (setAbandoned_commutes _).comp (endBeforeGo_commutes a o)

theorem sides_of_ne {other : Side} (ne : other ≠ side) : (side = .up ∧ other = .down) ∨ (side = .down ∧ other = .up) := by
  cases side <;> cases other <;> simp at ne ⊢

/-- A send on the other side. -/
theorem produce_commutes {other : Side} (ne : other ≠ side) : Commutes side (produce m other) y := by
  intro T shadow
  have list : sendList other (T y).casc = sendList other y.casc := by
    obtain ⟨rfl, rfl⟩ | ⟨rfl, rfl⟩ := sides_of_ne ne <;> rcases shadow with ⟨l, rfl⟩ | ⟨l, rfl⟩ <;> rfl
  have sets (l' : List Message) : setSendList other l' (T y) = T (setSendList other l' y) := by
    obtain ⟨rfl, rfl⟩ | ⟨rfl, rfl⟩ := sides_of_ne ne <;> rcases shadow with ⟨l, rfl⟩ | ⟨l, rfl⟩ <;> rfl
  simp only [produce, list]
  split_ifs
  · exact sets _
  · exact sets _
  · exact latch_commutes .cascadeFault T shadow

theorem forwardDown_commutes : Commutes .up (forwardDown m) y := by
  intro T shadow
  have last : (T y).casc.last = y.casc.last := by
    rcases shadow with ⟨l, rfl⟩ | ⟨l, rfl⟩
    · rfl
    · rfl
  unfold forwardDown
  rw [last, produce_commutes (by decide) T shadow]
  split_ifs <;> rfl

end

end Sys2Proof.Machine
end

section
/-! A follower's full UP list. -/

namespace Sys2Proof.Machine

-- One declaration at a time: elaborated in parallel, many quick ones exceed the memory limit.
set_option Elab.async false

section
variable {s t : State} {a : Agreement} {id : OpId} {kind : OpKind} {number : CkptNumber} {reason : RefuseReason} {o : DoneOutcome}

/-- A change of the cascade part after which no send is due, the rest as produce leaves it. -/
theorem sent_still {m : Message} {side : Side} {f : Agreement → Agreement} (busy : ChannelsBusy s) (settles : NoSettleDue s)
    (follower : s.casc.role = .follower) (sends : NoSendDue (modAgreement f (produce m side s))) :
    portFollow (controlFollow s (modAgreement f (produce m side s))) = modAgreement f (produce m side s) :=
  chain_still busy settles sends (.inr (dueSource_follower (by simpa using follower))) (by simp) (by simp) (by simp) (by simp)
    (by simp)

variable (h : inReset s = false) (follower : s.casc.role = .follower) (full : 4 ≤ s.casc.upList.length)
include h follower full

theorem onFull_prepareBusy (formed : (Message.prepare id kind number).wellFormed = true)
    (busy : s.casc.agreement.isSome = true) (stepped : exec (.prepareReceived .up id kind number) (holding .up [] s) = .next t) :
    exec (.prepareReceived .up id kind number) s = .next (onFull .up (.ready id (.refuse .state)) s.casc.upList t) := by
  refine step_onFull (pre := fun x => x) (post := fun x => x) (fun l => ?_) commutes_id commutes_id full stepped
  rw [prepareReceived_handled (s := holding .up l s) h follower formed, handlePrepare_busy (by exact busy)]

theorem onFull_prepareRefused (formed : (Message.prepare id kind number).wellFormed = true) (free : s.casc.agreement = none)
    (refusal : prepareRefusal kind number s = some reason)
    (stepped : exec (.prepareReceived .up id kind number) (holding .up [] s) = .next t) :
    exec (.prepareReceived .up id kind number) s = .next (onFull .up (.ready id (.refuse reason)) s.casc.upList t) := by
  refine step_onFull (pre := fun x => x) (fun l => ?_) commutes_id (setAbandoned_commutes id) full stepped
  rw [prepareReceived_handled (s := holding .up l s) h follower formed, handlePrepare_refused (by exact free) (by exact refusal)]

theorem onFull_readyRefused (last : s.casc.last = false) (busy : ChannelsBusy s) (settles : NoSettleDue s)
    (ha : s.casc.agreement = some a) (below : a.below = .awaited) (go : a.go = false) (unsent : a.readySent = .none)
    (stepped : exec (.readyReceived .down a.id (.refuse reason)) (holding .up [] s) = .next t) :
    exec (.readyReceived .down a.id (.refuse reason)) s
      = .next (onFull .up (.ready a.id (.refuse reason)) s.casc.upList t) := by
  refine step_onFull (pre := fun x => x) (fun l => ?_) commutes_id
    (modAgreement_commutes fun a => { a with below := .refused, readySent := .refuse }) full stepped
  have ha' : (holding .up l s).casc.agreement = some a := ha
  have noted : followerReady a.id (.refuse reason) (holding .up l s) = modAgreement
      (fun a => { a with below := .refused, readySent := .refuse }) (produce (.ready a.id (.refuse reason)) .up (holding .up l s)) := by
    simp only [followerReady, ha', if_true, if_pos (And.intro below go), if_pos unsent]
  rw [readyReceived_follower (s := holding .up l s) h follower last, noted, sent_still (s := holding .up l s) busy settles follower]
  exact noSendDue_follower (a := { a with below := .refused, readySent := .refuse }) (by simpa [holding] using follower)
    (by simp [modAgreement, ha']) (.inl ⟨go, .inr (.inl nofun)⟩)

theorem onFull_readyOk (ha : s.casc.agreement = some a) (settled : a.settled = true) (go : a.go = false)
    (below : a.below = .ok ∨ a.below = .notNeeded) (unsent : a.readySent = .none)
    (stepped : exec .readyOkSend (holding .up [] s) = .next t) :
    exec .readyOkSend s = .next (onFull .up (.ready a.id .ok) s.casc.upList t) := by
  refine step_onFull (pre := fun x => x) (fun l => ?_) commutes_id (modAgreement_commutes fun a => { a with readySent := .ok })
    full stepped
  have ha' : (holding .up l s).casc.agreement = some a := ha
  rw [exec_readyOkSend (s := holding .up l s) h]
  simp only [readyOk, ha']
  rw [if_pos ⟨follower, settled, below, unsent, go⟩]

theorem onFull_doneSend {b : DoneOutcome} (ha : s.casc.agreement = some a) (go : a.go = true) (own : a.own = some o)
    (known : a.belowDone = some b ∨ (s.casc.last = true ∧ a.belowDone = none ∧ b = o))
    (stepped : exec .doneSend (holding .up [] s) = .next t) :
    exec .doneSend s = .next (onFull .up (.done a.id (worse o b)) s.casc.upList t) := by
  refine step_onFull (pre := fun x => x) (fun l => ?_) commutes_id dropAgreement_commutes full stepped
  have ha' : (holding .up l s).casc.agreement = some a := ha
  have due : (holding .up l s).casc.last = true ∨ a.belowDone.isSome = true := by
    rcases known with below | ⟨last, -⟩
    · exact .inr (by simp [below])
    · exact .inl last
  have outcome : a.belowDone.getD o = b := by
    rcases known with below | ⟨-, below, rfl⟩
    · simp [below]
    · simp [below]
  rw [exec_doneSend (s := holding .up l s) h]
  simp only [doneSend, ha', own]
  rw [if_pos ⟨follower, go, due⟩, outcome]

theorem onFull_doneAbandoned (last : s.casc.last = false) (busy : ChannelsBusy s) (settles : NoSettleDue s)
    (free : s.casc.agreement = none) (abandoned : s.casc.abandoned = some id)
    (stepped : exec (.doneReceived .down id o) (holding .up [] s) = .next t) :
    exec (.doneReceived .down id o) s = .next (onFull .up (.done id .failed) s.casc.upList t) := by
  refine step_onFull (pre := fun x => x) (post := fun x => x) (fun l => ?_) commutes_id commutes_id full stepped
  have still : NoSendDue (produce (.done id .failed) .up (holding .up l s)) := by
    intro a ha
    simp [holding, free] at ha
  rw [doneReceived_follower (s := holding .up l s) h follower last, followerDone_none (by exact free), if_pos (by exact abandoned),
    chain_still (s := holding .up l s) busy settles still (.inr (dueSource_follower (by simpa [holding] using follower)))
      (by simp) (by simp) (by simp) (by simp) (by simp)]

theorem onFull_strayGoUp (nonzero : number ≠ 0) (other : ∀ a, s.casc.agreement = some a → a.id ≠ id)
    (stepped : exec (.goReceived .up id number) (holding .up [] s) = .next t) :
    exec (.goReceived .up id number) s = .next (onFull .up (.done id .failed) s.casc.upList t) := by
  refine step_onFull (fun l => ?_) faulted_commutes (forwardDown_commutes (m := .abandon id)) full stepped
  rw [goReceived_handled (s := holding .up l s) h follower nonzero, handleGo_stray (by exact other)]
  rfl

end

end Sys2Proof.Machine
end

section
/-! Takes, walks and settles that a send list does not matter to. -/

namespace Sys2Proof.Machine

-- One declaration at a time: elaborated in parallel, many quick ones exceed the memory limit.
set_option Elab.async false

section
variable {s y t : State} {side : Side} {T : State → State} {a : Agreement} {id : OpId} {number k : CkptNumber} {g : Goal}
  {src : Source}

/-- What a change of a send list and CASCADE_FAULT leave alone. -/
theorem Shadow.kept (shadow : Shadow side T) (y : State) : (T y).ckpt = y.ckpt ∧ (T y).log = y.log ∧ (T y).entries = y.entries
    ∧ (T y).cls = y.cls ∧ (T y).restore = y.restore ∧ (T y).casc.role = y.casc.role
    ∧ (T y).casc.agreement = y.casc.agreement := by
  rcases shadow with ⟨l, rfl⟩ | ⟨l, rfl⟩ <;> cases side <;> exact ⟨rfl, rfl, rfl, rfl, rfl, rfl, rfl⟩

/-! ## Takes -/

theorem pushCkpt_commutes (n : CkptNumber) (src : Source) : Commutes side (pushCkpt n src) y := by
  rintro T (⟨l, rfl⟩ | ⟨l, rfl⟩)
  · simp only [pushCkpt_fields]
    rfl
  · simp only [pushCkpt_fields]
    rfl

theorem failApply_commutes : Commutes side (failApply id number) y :=
  (modAgreement_commutes _).comp ((latch_commutes _).comp ((writeResult_commutes _).comp
    (standDown_commutes.comp (onCkpt_commutes fun c => { c with nextNumber := succNumber number }))))

/-- The push of an agreed take, and its result (R13). -/
theorem agreedPush_commutes : Commutes side (fun s => modAgreement (fun a => { a with own := some .done })
    (latch .takeDone (writeResult (takeResult .cascade .done (some number) (some id)) (pushCkpt number .cascade s)))) y :=
  (modAgreement_commutes _).comp ((latch_commutes _).comp ((writeResult_commutes _).comp (pushCkpt_commutes _ _)))

/-- The release of the oldest record with nobody waiting (R14). -/
theorem releaseOldest_commutes (none : y.log.waitList = []) : Commutes side (releaseOldest 1) y := by
  rintro T (⟨l, rfl⟩ | ⟨l, rfl⟩)
  · rw [releaseOldest_eq, releaseOldest_eq, serveWaitList_nil (by exact none), serveWaitList_nil (by exact none)]
    rfl
  · rw [releaseOldest_eq, releaseOldest_eq, serveWaitList_nil (by exact none), serveWaitList_nil (by exact none)]
    rfl

/-- An agreed take on a stack that has room or is relieved. -/
def pushAgreed (id : OpId) (number : CkptNumber) (s : State) : State :=
  if numberHeld number s.ckpt.stack then failApply id number s
  else modAgreement (fun a => { a with own := some .done })
    (latch .takeDone (writeResult (takeResult .cascade .done (some number) (some id)) (pushCkpt number .cascade s)))

/-- A full stack relieved of its oldest record. -/
def relieved (s : State) : State := if stackFull s = true then releaseOldest 1 s else s

theorem applyTake_relieved (id : OpId) (number : CkptNumber) (s : State) : applyTake id number s =
    if stackFull s = true ∧ s.ckpt.rolling = false then failApply id number s else pushAgreed id number (relieved s) := rfl

theorem pushAgreed_commutes : Commutes side (pushAgreed id number) y := by
  intro T shadow
  obtain ⟨ckpt, -⟩ := shadow.kept y
  rw [pushAgreed, pushAgreed, ckpt]
  split_ifs
  · exact failApply_commutes T shadow
  · exact agreedPush_commutes T shadow

theorem stackFull_shadow (shadow : Shadow side T) (y : State) : stackFull (T y) = stackFull y := by
  rw [stackFull, stackFull, (shadow.kept y).1]

theorem relieved_commutes (none : y.log.waitList = []) : Commutes side relieved y := by
  intro T shadow
  rw [relieved, relieved, stackFull_shadow shadow]
  split_ifs
  · exact releaseOldest_commutes none T shadow
  · rfl

theorem applyTake_commutes (none : y.log.waitList = []) : Commutes side (applyTake id number) y := by
  intro T shadow
  obtain ⟨ckpt, -⟩ := shadow.kept y
  rw [applyTake_relieved, applyTake_relieved, stackFull_shadow shadow, ckpt]
  split_ifs
  · exact failApply_commutes T shadow
  · exact (pushAgreed_commutes.comp (relieved_commutes none)) T shadow

/-! ## Walks -/

/-- The report of a walk's end, the agreement apart. -/
def walkReport (w : Walk) (o : DoneOutcome) (lines : Nat) (s : State) : State :=
  if s.casc.role = .leader then s
  else latch .rollbackDone (writeResult
    (rollbackResult (rollbackSource s) (resultOutcome o) w.target w.applied lines (cascadeIdOf s)) s)

theorem reportWalk_noted (w : Walk) (o : DoneOutcome) (s : State) : reportWalk w o s = walkReport w o (linesUnrestored s)
    (modAgreement (fun a => { a with own := some o, applied := w.applied, unrestored := linesUnrestored s }) s) := rfl

theorem walkReport_commutes (w : Walk) (o : DoneOutcome) (lines : Nat) : Commutes side (walkReport w o lines) y := by
  intro T shadow
  obtain ⟨-, -, -, -, -, role, agreement⟩ := shadow.kept y
  simp only [walkReport, rollbackSource, cascadeIdOf, role, agreement]
  split_ifs
  · rfl
  · exact ((latch_commutes _).comp (writeResult_commutes _)) T shadow
  · exact ((latch_commutes _).comp (writeResult_commutes _)) T shadow

theorem reportWalk_commutes (w : Walk) (o : DoneOutcome) : Commutes side (reportWalk w o) y := by
  intro T shadow
  obtain ⟨-, -, -, -, restore, -, -⟩ := shadow.kept y
  have lines : linesUnrestored (T y) = linesUnrestored y := by rw [linesUnrestored, linesUnrestored, restore]
  rw [reportWalk_noted, reportWalk_noted, lines]
  exact ((walkReport_commutes w o _).comp (modAgreement_commutes _)) T shadow

theorem walkTruncated_commutes (r : CkptRecord) : Commutes side (walkTruncated k r) y := by
  rintro T (⟨l, rfl⟩ | ⟨l, rfl⟩)
  · rfl
  · rfl

theorem finishWalk_commutes {w : Walk} {r : CkptRecord} (going : w.stopped = false) (found : findCkpt w.target y = some r) :
    Commutes side (finishWalk w) y := by
  intro T shadow
  obtain ⟨ckpt, -, -, -, restore, -, -⟩ := shadow.kept y
  have found' : findCkpt w.target (T y) = some r := by rw [findCkpt, ckpt]; exact found
  rw [finishWalk_floor going found, finishWalk_floor going found', restore]
  exact ((reportWalk_commutes w _).comp (walkTruncated_commutes r)) T shadow

theorem requestHeader_commutes (w : Walk) : Commutes side (requestHeader w) y := by
  rintro T (⟨l, rfl⟩ | ⟨l, rfl⟩)
  · rfl
  · rfl

theorem setCtrl_commutes (c : Ctrl) : Commutes side (setCtrl c) y := onCkpt_commutes fun x => { x with ctrl := c }

/-- The context of a walk at its start (R75). -/
def walkStart (k : CkptNumber) (r : CkptRecord) (s : State) : Walk :=
  { target := k, floor := r.mark, position := s.log.head - 1, stage := .header, header := none
    oldData := none, applied := 0, stopped := false, quarantined := false }

theorem startWalk_found {r : CkptRecord} (found : findCkpt k s = some r) : startWalk k s =
    if s.log.head = r.mark then finishWalk (walkStart k r s) (setCtrl (.restoring k) s)
    else requestHeader (walkStart k r s) (setCtrl (.restoring k) s) := by
  simp only [startWalk, found]
  rfl

theorem startWalk_commutes : Commutes side (startWalk k) y := by
  intro T shadow
  obtain ⟨ckpt, log, -⟩ := shadow.kept y
  cases found : findCkpt k y with
  | none =>
    have found' : findCkpt k (T y) = none := by rw [findCkpt, ckpt]; exact found
    simp only [startWalk, found, found']
  | some r =>
    have found' : findCkpt k (T y) = some r := by rw [findCkpt, ckpt]; exact found
    rw [startWalk_found found, startWalk_found found', log, show walkStart k r (T y) = walkStart k r y by rw [walkStart, walkStart, log]]
    split_ifs
    · exact ((finishWalk_commutes rfl (by exact found)).comp (setCtrl_commutes _)) T shadow
    · exact ((requestHeader_commutes _).comp (setCtrl_commutes _)) T shadow

/-! ## Settles and ends of agreements -/

/-- The tracker is settled as the operation needs it (R10, R72). -/
def goalSettled (g : Goal) (s : State) : Bool :=
  match g with
  | .take => settled s
  | .rollback _ => rollbackSettled s

/-- The settle of a chained operation whose agreement awaits READY. -/
def settleBegun (g : Goal) (src : Source) (s : State) : State := if goalSettled g s = true then enterAgreeing g src s else s

theorem goalSettled_shadow (shadow : Shadow side T) (y : State) : goalSettled g (T y) = goalSettled g y := by
  obtain ⟨-, -, entries, cls, -⟩ := shadow.kept y
  cases g
  · simp only [goalSettled, settled, entries]
  · simp only [goalSettled, rollbackSettled, entries, cls]

theorem enterAgreeing_commutes : Commutes side (enterAgreeing g src) y := (modAgreement_commutes _).comp (setCtrl_commutes _)

theorem settleBegun_commutes : Commutes side (settleBegun g src) y := by
  intro T shadow
  rw [settleBegun, settleBegun, goalSettled_shadow shadow]
  split_ifs
  · exact enterAgreeing_commutes T shadow
  · rfl

theorem agreementEnd_commutes : Commutes side agreementEnd y := by
  intro T shadow
  obtain ⟨-, -, -, -, -, role, agreement⟩ := shadow.kept y
  cases ha : y.casc.agreement with
  | none => simp only [agreementEnd, agreement, ha]
  | some a =>
    cases own : a.own with
    | none => simp only [agreementEnd, agreement, ha, own]
    | some o =>
      cases below : a.belowDone with
      | none => simp only [agreementEnd, agreement, ha, own, below]
      | some b =>
        simp only [agreementEnd, agreement, ha, own, below, role]
        split_ifs
        · exact (dropAgreement_commutes.comp ((latch_commutes _).comp (writeResult_commutes _))) T shadow
        · rfl

end

end Sys2Proof.Machine
end

section
/-! A full DOWN list of a follower and of a leader. -/

namespace Sys2Proof.Machine

-- One declaration at a time: elaborated in parallel, many quick ones exceed the memory limit.
set_option Elab.async false

/-! ## What follows an operation begun or ended in a chain -/

section
variable {s t u : State} {a b : Agreement} {id : OpId} {number k : CkptNumber} {g : Goal} {src : Source} {side : Side}
  {m : Message}

theorem forwardDown_notLast (last : s.casc.last = false) : forwardDown m s = produce m .down s := if_neg (by simp [last])

/-- The settle of an operation in a chain. -/
theorem settle_begun (ctrl : t.ckpt.ctrl = .settling g src) (chain : t.casc.role ≠ .solo)
    (live : ∀ k, g = .rollback k → targetLive k t = true) : settle t = settleBegun g src t := by
  cases g with
  | take =>
    rw [settle_ofTake ctrl, settleBegun, goalSettled]
    cases tracker : settled t
    · rw [if_neg Bool.false_ne_true, ← settle_ofTake ctrl, settle_unsettled tracker]
    · rw [settleTake_settling ctrl tracker, if_neg chain, if_pos rfl]
  | rollback k =>
    rw [settleBegun, goalSettled]
    cases tracker : rollbackSettled t
    · rw [if_neg Bool.false_ne_true]
      refine settle_none ⟨fun src' take => ?_, fun _ _ _ => tracker⟩
      rw [ctrl] at take
      exact absurd take nofun
    · rw [settle_ofRollback ctrl, settleRollback_settling ctrl tracker, if_pos (live k rfl), if_neg chain, if_pos rfl]

/-- What a settle in a chain leaves alone, and its agreement, which awaits READY. -/
theorem settleBegun_kept (ha : t.casc.agreement = some a) : (settleBegun g src t).down = t.down ∧ (settleBegun g src t).up = t.up
    ∧ ((settleBegun g src t).ckpt.ctrl = t.ckpt.ctrl ∨ (settleBegun g src t).ckpt.ctrl = .agreeing g src)
    ∧ ∃ b, (settleBegun g src t).casc.agreement = some b ∧ b.below = a.below ∧ b.go = a.go := by
  rw [settleBegun]
  split_ifs
  · rw [enterAgreeing_fields ha]
    exact ⟨rfl, rfl, .inr rfl, _, rfl, rfl, rfl⟩
  · exact ⟨rfl, rfl, .inl rfl, a, ha, rfl, rfl⟩

/-- Nothing but its settle follows the start of an operation in a chain. -/
theorem begun_follow (ctrl : t.ckpt.ctrl = .settling g src) (chain : t.casc.role ≠ .solo)
    (live : ∀ k, g = .rollback k → targetLive k t = true) (ha : t.casc.agreement = some a) (below : a.below = .awaited)
    (go : a.go = false) (busy : ChannelsBusy t) : portFollow (controlFollow t t) = settleBegun g src t := by
  obtain ⟨down, up, ctrl', b, hb, below', go'⟩ := settleBegun_kept (g := g) (src := src) ha
  have op : longOp (settleBegun g src t) = true := by
    refine longOp_of_ctrl ?_
    rcases ctrl' with same | agreed
    · rw [same, ctrl]
      nofun
    · rw [agreed]
      nofun
  rw [controlFollow, settle_begun ctrl chain live, cascadeFollow_notDue (noSendDue_awaited hb (below'.trans below) (go'.trans go)),
    triggerCheck_idle (.inl op), ite_self, portFollow_busy (by rw [ChannelsBusy, down, up]; exact busy)]

/-- Nothing follows the outcome of a follower that awaits DONE from below. -/
theorem outcome_follow (busy : ChannelsBusy s) (idle : ∀ g src, u.ckpt.ctrl ≠ .settling g src) (follower : u.casc.role = .follower)
    (last : u.casc.last = false) (hb : u.casc.agreement = some b) (go : b.go = true) (below : b.belowDone = none)
    (channel : u.down.channel = s.down.channel) (up : u.up = s.up) : portFollow (controlFollow s u) = u :=
  follow_still (settle_elsewhere idle) (cascadeFollow_notDue (noSendDue_follower follower hb (.inr ⟨go, .inr ⟨below, last⟩⟩)))
    (.inr (.inr (dueSource_follower follower))) (portFollow_busy ⟨by rw [channel]; exact busy.1, by rw [up]; exact busy.2⟩)

theorem applyTake_kept (ha : s.casc.agreement = some a) : (applyTake id number s).ckpt.ctrl = .idle
    ∧ ∃ b, (applyTake id number s).casc.agreement = some b ∧ b.go = a.go ∧ b.belowDone = a.belowDone := by
  have failed {v : State} (hv : v.casc.agreement = some a) : (failApply id number v).ckpt.ctrl = .idle
      ∧ ∃ b, (failApply id number v).casc.agreement = some b ∧ b.go = a.go ∧ b.belowDone = a.belowDone := by
    rw [failApply_fields hv]
    exact ⟨rfl, _, rfl, rfl, rfl⟩
  have hr : (relieved s).casc.agreement = some a := by
    rw [relieved]
    split_ifs
    · simpa using ha
    · exact ha
  rw [applyTake_relieved]
  split_ifs
  · exact failed ha
  · rw [pushAgreed]
    split_ifs
    · exact failed hr
    · rw [agreedTake_fields, pushCkpt_fields, modAgreement_some (a := a) (by exact hr)]
      exact ⟨rfl, _, rfl, rfl, rfl⟩

theorem startWalk_kept (follower : s.casc.role = .follower) (ha : s.casc.agreement = some a)
    (idle : ∀ g src, s.ckpt.ctrl ≠ .settling g src) : (∀ g src, (startWalk k s).ckpt.ctrl ≠ .settling g src)
    ∧ ∃ b, (startWalk k s).casc.agreement = some b ∧ b.go = a.go ∧ b.belowDone = a.belowDone := by
  cases found : findCkpt k s with
  | none =>
    simp only [startWalk, found]
    exact ⟨idle, a, ha, rfl, rfl⟩
  | some r =>
    rw [startWalk_found found]
    split_ifs
    · rw [finishWalk_floor (r := r) rfl (by exact found), reportWalk_follower (a := a) (by exact follower) (by exact ha)]
      exact ⟨nofun, _, rfl, rfl, rfl⟩
    · exact ⟨nofun, a, ha, rfl, rfl⟩

theorem goRun_kept (follower : s.casc.role = .follower) (hs : s.casc.agreement = some b)
    (idle : ∀ g src, s.ckpt.ctrl ≠ .settling g src) : (∀ g src, (goRun a number s).ckpt.ctrl ≠ .settling g src)
    ∧ (∃ c, (goRun a number s).casc.agreement = some c ∧ c.go = b.go ∧ c.belowDone = b.belowDone)
    ∧ (goRun a number s).casc.role = s.casc.role ∧ (goRun a number s).casc.last = s.casc.last
    ∧ (goRun a number s).down.channel = s.down.channel ∧ (goRun a number s).up = s.up := by
  cases goal : a.goal with
  | take =>
    obtain ⟨ctrl, agreement⟩ := applyTake_kept (id := a.id) (number := number) hs
    rw [goRun_take goal]
    exact ⟨by simp [ctrl], agreement, by simp, by simp, by simp, by simp⟩
  | rollback k =>
    obtain ⟨ctrl, agreement⟩ := startWalk_kept (k := k) follower hs idle
    rw [goRun_rollback goal]
    exact ⟨ctrl, agreement, by simp, by simp, by simp, by simp⟩

theorem goRun_commutes (none : s.log.waitList = []) : Commutes side (goRun a number) s := by
  intro T shadow
  cases goal : a.goal with
  | take =>
    rw [goRun_take goal, goRun_take goal]
    exact applyTake_commutes none T shadow
  | rollback k =>
    rw [goRun_rollback goal, goRun_rollback goal]
    exact startWalk_commutes T shadow

end

end Sys2Proof.Machine
end

section
/-! Commands that send down the chain, on a full list. -/

namespace Sys2Proof.Machine

-- One declaration at a time: elaborated in parallel, many quick ones exceed the memory limit.
set_option Elab.async false

/-! ## The start of a follower's operation -/

section
variable {s t : State} {id : OpId} {kind : OpKind} {number k : CkptNumber}

/-- The agreement of a PREPARE accepted (R166). -/
def joinedCasc (id : OpId) (g : Goal) (x : State) : State := x.onCasc fun c =>
  { c with agreement := some (newAgreement id g .cascade (if c.last then .notNeeded else .awaited) c.holdLimit) }

theorem joinedCasc_commutes (g : Goal) : Commutes .down (joinedCasc id g) s := by
  rintro T (⟨l, rfl⟩ | ⟨l, rfl⟩)
  · rfl
  · rfl

theorem beginFollower_commutes (g : Goal) (none : s.log.waitList = []) : Commutes .down (beginFollower g) s := by
  intro T shadow
  cases g with
  | take => exact onCkpt_commutes (fun c => { c with fence := true, ctrl := .settling .take .cascade }) T shadow
  | rollback k =>
    obtain ⟨-, log, -⟩ := shadow.kept s
    rw [beginFollower, beginFollower, beginRollback_noneWaiting none, beginRollback_noneWaiting (by rw [log]; exact none)]
    rcases shadow with ⟨l, rfl⟩ | ⟨l, rfl⟩
    · rfl
    · rfl

theorem beginFollower_begun (g : Goal) (none : s.log.waitList = []) : (beginFollower g s).ckpt.ctrl = .settling g .cascade
    ∧ (beginFollower g s).casc = s.casc ∧ (beginFollower g s).ckpt.stack = s.ckpt.stack ∧ (beginFollower g s).down = s.down
    ∧ (beginFollower g s).up = s.up := by
  cases g with
  | take => exact ⟨rfl, rfl, rfl, rfl, rfl⟩
  | rollback k =>
    rw [beginFollower, beginRollback_noneWaiting none]
    exact ⟨rfl, rfl, rfl, rfl, rfl⟩

theorem targetLive_same (stack : t.ckpt.stack = s.ckpt.stack) : targetLive k t = targetLive k s := by
  rw [targetLive, targetLive, findCkpt, findCkpt, stack]

theorem targetLive_of_passed (passes : prepareRefusal kind number s = none) :
    ∀ k, goalOf kind number = .rollback k → targetLive k s = true := by
  cases kind with
  | take => nofun
  | rollback =>
    rintro k ⟨rfl⟩
    simp only [prepareRefusal] at passes
    split_ifs at passes with _ _ live
    simpa using live

end

/-! ## At a follower -/

section
variable {s t : State} {a : Agreement} {id : OpId} {kind : OpKind} {number : CkptNumber}
variable (h : inReset s = false) (follower : s.casc.role = .follower) (last : s.casc.last = false)
  (full : 4 ≤ s.casc.downList.length)
include h follower last full

theorem onFull_strayGoDown (nonzero : number ≠ 0) (other : ∀ a, s.casc.agreement = some a → a.id ≠ id)
    (stepped : exec (.goReceived .up id number) (holding .down [] s) = .next t) :
    exec (.goReceived .up id number) s = .next (onFull .down (.abandon id) s.casc.downList t) := by
  refine step_onFull (post := fun x => x) (fun l => ?_)
    ((produce_commutes (m := .done id .failed) (other := .up) (by decide)).comp faulted_commutes) commutes_id full stepped
  rw [goReceived_handled (s := holding .down l s) h follower nonzero, handleGo_stray (by exact other), strayGo,
    forwardDown_notLast (by simpa [holding] using last)]
  rfl

theorem onFull_abandon (early : ∀ a, s.casc.agreement = some a → a.id = id → a.go = false)
    (stepped : exec (.abandonReceived .up id) (holding .down [] s) = .next t) :
    exec (.abandonReceived .up id) s = .next (onFull .down (.abandon id) s.casc.downList t) := by
  by_cases own : ∃ a, s.casc.agreement = some a ∧ a.id = id
  · obtain ⟨a, ha, rfl⟩ := own
    refine step_onFull (pre := fun x => x) (fun l => ?_) commutes_id (leaveAgreement_commutes a .refused) full stepped
    rw [abandonReceived_follower (s := holding .down l s) h follower, handleAbandon_same (by exact ha),
      if_neg (by simp [early a ha rfl]), forwardDown_notLast (by exact last)]
  · have other (a : Agreement) (ha : s.casc.agreement = some a) : id ≠ a.id := fun same => own ⟨a, ha, same.symm⟩
    refine step_onFull (pre := fun x => x) (post := fun x => x) (fun l => ?_) commutes_id commutes_id full stepped
    rw [abandonReceived_follower (s := holding .down l s) h follower, handleAbandon_other (by exact other),
      forwardDown_notLast (by exact last)]

theorem onFull_go (busy : ChannelsBusy s) (none : s.log.waitList = []) (nonzero : number ≠ 0) (agreeing : isAgreeing s = true)
    (ha : s.casc.agreement = some a) (sent : a.readySent = .ok) (go : a.go = false) (below : a.belowDone = Option.none)
    (stepped : exec (.goReceived .up a.id number) (holding .down [] s) = .next t) :
    exec (.goReceived .up a.id number) s = .next (onFull .down (.go a.id number) s.casc.downList t) := by
  refine step_onFull (fun l => ?_) (modAgreement_commutes fun a => { a with go := true, timer := Option.none })
    (goRun_commutes (a := a) (number := number) (by exact none)) full stepped
  have ha' : (holding .down l s).casc.agreement = some a := ha
  have ctrl : ∀ g src, s.ckpt.ctrl ≠ .settling g src := by
    intro g src settling
    simp [isAgreeing, settling] at agreeing
  obtain ⟨idle, ⟨c, hc, goes, awaits⟩, role, last', channel, up⟩ := goRun_kept (a := a) (number := number)
    (s := produce (.go a.id number) .down (modAgreement (fun a => { a with go := true, timer := Option.none }) (holding .down l s)))
    (b := { a with go := true, timer := Option.none }) (by simpa [holding] using follower) (by simp [modAgreement, ha'])
    (by simpa [holding] using ctrl)
  rw [goReceived_handled (s := holding .down l s) h follower nonzero, handleGo_awaited ha' agreeing sent go, applyGo_run,
    forwardDown_notLast (by exact last)]
  refine congrArg _ (outcome_follow (b := c) busy idle (role.trans (by simpa [holding] using follower))
    (last'.trans (by simpa [holding] using last)) hc goes (awaits.trans below) (channel.trans (by simp)) (up.trans (by simp)))

theorem onFull_prepareAccepted (busy : ChannelsBusy s) (none : s.log.waitList = [])
    (formed : (Message.prepare id kind number).wellFormed = true) (free : s.casc.agreement = Option.none)
    (passes : prepareRefusal kind number s = Option.none)
    (stepped : exec (.prepareReceived .up id kind number) (holding .down [] s) = .next t) :
    exec (.prepareReceived .up id kind number) s
      = .next (onFull .down (prepareOf id (goalOf kind number)) s.casc.downList t) := by
  refine step_onFull (fun l => ?_) (joinedCasc_commutes (id := id) (goalOf kind number))
    ((settleBegun_commutes (g := goalOf kind number) (src := .cascade)).comp
      (beginFollower_commutes (goalOf kind number) (by exact none))) full stepped
  let sent := produce (prepareOf id (goalOf kind number)) .down (joinedCasc id (goalOf kind number) (holding .down l s))
  have accepted : acceptPrepare id (goalOf kind number) (holding .down l s) = beginFollower (goalOf kind number) sent :=
    congrArg (beginFollower _) (forwardDown_notLast (by exact last))
  obtain ⟨ctrl, casc, stack, down, up⟩ := beginFollower_begun (s := sent) (goalOf kind number)
    (by simpa [sent, joinedCasc, holding] using none)
  have agreement : (beginFollower (goalOf kind number) sent).casc.agreement
      = some (newAgreement id (goalOf kind number) .cascade .awaited s.casc.holdLimit) := by
    rw [casc]
    simp [sent, joinedCasc, holding, last]
  have role : (beginFollower (goalOf kind number) sent).casc.role = .follower := by
    rw [casc]
    simpa [sent, joinedCasc, holding] using follower
  have stack' : (beginFollower (goalOf kind number) sent).ckpt.stack = s.ckpt.stack :=
    stack.trans (by simp [sent, joinedCasc, holding])
  rw [prepareReceived_handled (s := holding .down l s) h follower formed, handlePrepare_accepted (by exact free) (by exact passes),
    accepted, begun_follow (src := .cascade) ctrl (by rw [role]; nofun) ?_ agreement rfl rfl ?_]
  · intro k goal
    rw [targetLive_same stack']
    exact targetLive_of_passed passes k goal
  · rw [ChannelsBusy, down, up]
    simpa [sent, joinedCasc, holding] using busy

end

/-! ## At a leader -/

section
variable {s t : State} {a : Agreement} {id : OpId} {k : CkptNumber} {d : Decoder}

/-- The end of a leader's agreement before GO, with nothing to follow. -/
theorem endBeforeGo_ends {o : ResultOutcome} (busy : ChannelsBusy s) (flags : NoFlags s) (ckpt : t.ckpt = s.ckpt)
    (down : t.down = s.down) (up : t.up = s.up) :
    portFollow (controlFollow s (endBeforeGo a o t)) = endBeforeGo a o t := by
  rw [endBeforeGo_still busy flags ckpt down up, endBeforeGo_fields]

/-- LEADER_GO with no flag set and both channels occupied. -/
theorem exec_leaderGo_quiet (h : inReset s = false) (busy : ChannelsBusy s) (flags : NoFlags s) :
    exec .leaderGo s = .next (agreementEnd (leaderGo s)) := by
  have notDue : dueSource (agreementEnd (leaderGo s)) = none := dueSource_noFlags (by simpa [NoFlags] using flags)
  rw [exec_leaderGo h, triggerCheck_idle (.inr notDue), ite_self, portFollow_busy (by simpa [ChannelsBusy] using busy)]

variable (h : inReset s = false) (leader : s.casc.role = .leader) (full : 4 ≤ s.casc.downList.length)
include h leader full

theorem onFull_agreementTimeout (busy : ChannelsBusy s) (flags : NoFlags s) (ha : s.casc.agreement = some a)
    (running : a.timer.isSome = true) (stepped : exec .agreementTimeout (holding .down [] s) = .next t) :
    exec .agreementTimeout s = .next (onFull .down (.abandon a.id) s.casc.downList t) := by
  refine step_onFull (pre := fun x => x) (fun l => ?_) commutes_id (endBeforeGo_commutes a .timeout) full stepped
  rw [exec_agreementTimeout_some (s := holding .down l s) h ha, if_pos ⟨leader, running⟩,
    endBeforeGo_ends (s := holding .down l s) busy flags (by simp) (by simp) (by simp)]

theorem onFull_leaderRefused {reason : RefuseReason} (busy : ChannelsBusy s) (flags : NoFlags s) (ha : s.casc.agreement = some a)
    (below : a.below = .awaited) (stepped : exec (.readyReceived .down a.id (.refuse reason)) (holding .down [] s) = .next t) :
    exec (.readyReceived .down a.id (.refuse reason)) s = .next (onFull .down (.abandon a.id) s.casc.downList t) := by
  have noted : Commutes .down (State.onCasc · fun c => { c with lastRefusal := some reason }) s := by
    rintro T (⟨l, rfl⟩ | ⟨l, rfl⟩)
    · rfl
    · rfl
  refine step_onFull (fun l => ?_) noted (endBeforeGo_commutes a .refused) full stepped
  rw [readyReceived_leader (s := holding .down l s) h leader, leaderReady_refuse (by exact ha) below, leaderRefused,
    endBeforeGo_ends (s := holding .down l s) busy flags (by simp) (by simp) (by simp)]

theorem onFull_leaderGoTake (busy : ChannelsBusy s) (flags : NoFlags s) (ha : s.casc.agreement = some a)
    (settled : a.settled = true) (below : a.below = .ok) (go : a.go = false) (goal : a.goal = .take)
    (stepped : exec .leaderGo (holding .down [] s) = .next t) :
    exec .leaderGo s = .next (onFull .down (.go a.id (assignedNumber s)) s.casc.downList t) := by
  refine step_onFull (pre := fun x => x) (fun l => ?_) commutes_id
    (agreementEnd_commutes.comp ((modAgreement_commutes fun a =>
      { a with go := true, own := some .done, pushed := some (assignedNumber s) }).comp
        (pushCkpt_commutes (assignedNumber s) a.source))) full stepped
  have ha' : (holding .down l s).casc.agreement = some a := ha
  have sent : leaderGo (holding .down l s) = goTake a (holding .down l s) := by
    simp only [leaderGo, ha']
    rw [if_pos ⟨leader, settled, below, go⟩, goal]
  rw [exec_leaderGo_quiet (s := holding .down l s) h busy flags, sent]
  rfl

theorem onFull_leaderGoRollback (busy : ChannelsBusy s) (flags : NoFlags s) (ha : s.casc.agreement = some a)
    (settled : a.settled = true) (below : a.below = .ok) (go : a.go = false) (goal : a.goal = .rollback k)
    (stepped : exec .leaderGo (holding .down [] s) = .next t) :
    exec .leaderGo s = .next (onFull .down (.go a.id k) s.casc.downList t) := by
  refine step_onFull (pre := fun x => x) (fun l => ?_) commutes_id
    (agreementEnd_commutes.comp ((startWalk_commutes (k := k)).comp (modAgreement_commutes fun a => { a with go := true })))
    full stepped
  have ha' : (holding .down l s).casc.agreement = some a := ha
  have sent : leaderGo (holding .down l s) = goRollback a k (holding .down l s) := by
    simp only [leaderGo, ha']
    rw [if_pos ⟨leader, settled, below, go⟩, goal]
  rw [exec_leaderGo_quiet (s := holding .down l s) h busy flags, sent]
  rfl

end

end Sys2Proof.Machine
end

section
/-! TAKE and ROLLBACK at a leader with a full DOWN list, and the statement on full send lists. -/

namespace Sys2Proof.Machine

-- One declaration at a time: elaborated in parallel, many quick ones exceed the memory limit.
set_option Elab.async false

section
variable {s t : State} {k : CkptNumber} {d : Decoder} {g : Goal} {src : Source}

/-- A leader's agreement made, its PREPARE not yet sent (R161). -/
def agreementMade (g : Goal) (src : Source) (x : State) : State := x.onCasc fun c =>
  { c with opId := c.opId + 1, agreement := some (newAgreement (c.opId + 1) g src .awaited c.agreementLimit) }

theorem agreeIfLeader_sends (leader : s.casc.role = .leader) :
    agreeIfLeader g src s = produce (prepareOf (s.casc.opId + 1) g) .down (agreementMade g src s) := if_pos leader

theorem agreementMade_commutes : Commutes .down (agreementMade g src) s := by
  rintro T (⟨l, rfl⟩ | ⟨l, rfl⟩)
  · rfl
  · rfl

theorem takeBegun_commutes : Commutes .down (takeBegun src) s := by
  rintro T (⟨l, rfl⟩ | ⟨l, rfl⟩)
  · rfl
  · rfl

theorem rollbackBegun_commutes : Commutes .down (rollbackBegun k src) s := by
  rintro T (⟨l, rfl⟩ | ⟨l, rfl⟩)
  · rfl
  · rfl

theorem answered_commutes (st : Byte) (payload : List Byte) : Commutes .down (answered d st payload) s := by
  rintro T (⟨l, rfl⟩ | ⟨l, rfl⟩)
  · rfl
  · rfl

theorem targetLive_of_check (check : checkRollback k s = none) : targetLive k s = true := by
  simp only [checkRollback] at check
  split_ifs at check with _ _ _ _ _ live
  simpa using live

variable (h : Listening s d) (leader : s.casc.role = .leader) (full : 4 ≤ s.casc.downList.length)
include h leader full

theorem onFull_take (check : checkTake s = none) (stepped : exec .take (holding .down [] s) = .next t) :
    exec .take s = .next (onFull .down (.prepare (s.casc.opId + 1) .take 0) s.casc.downList t) := by
  refine step_onFull (fun l => ?_) ((agreementMade_commutes (g := .take) (src := .command)).comp (takeBegun_commutes (src := .command)))
    ((answered_commutes (d := d) 0x01 []).comp (settleBegun_commutes (g := .take) (src := .command))) full stepped
  refine (execTake_accepted (s := holding .down l s) h check).trans ?_
  rw [startTake_eq, agreeIfLeader_sends (by exact leader)]
  refine congrArg _ (congrArg (answered d 0x01 []) (settle_begun ?_ ?_ nofun))
  · simp [agreementMade, takeBegun]
  · simp [agreementMade, takeBegun, holding, leader]

theorem onFull_rollback (busy : ChannelsBusy s) (none : s.log.waitList = []) (check : checkRollback k s = Option.none)
    (stepped : exec (.rollback k) (holding .down [] s) = .next t) :
    exec (.rollback k) s = .next (onFull .down (.prepare (s.casc.opId + 1) .rollback k) s.casc.downList t) := by
  refine step_onFull (fun l => ?_) ((agreementMade_commutes (g := .rollback k) (src := .command)).comp
    (rollbackBegun_commutes (k := k) (src := .command)))
    ((answered_commutes (d := d) 0x01 []).comp (settleBegun_commutes (g := .rollback k) (src := .command))) full stepped
  refine (execRollback_accepted (s := holding .down l s) h check).trans ?_
  rw [acceptRollback, beginRollback_noneWaiting (by exact none), agreeIfLeader_sends (by exact leader)]
  refine congrArg _ (congrArg (answered d 0x01 []) (begun_follow
    (a := newAgreement (s.casc.opId + 1) (.rollback k) .command .awaited s.casc.agreementLimit) ?_ ?_ ?_ ?_ rfl rfl ?_))
  · simp [agreementMade, rollbackBegun]
  · simp [agreementMade, rollbackBegun, holding, leader]
  · rintro k ⟨rfl⟩
    rw [targetLive_same (s := s) (by simp [agreementMade, rollbackBegun, holding])]
    exact targetLive_of_check check
  · simp [agreementMade, rollbackBegun, holding]
  · simpa [ChannelsBusy, agreementMade, rollbackBegun, holding] using busy

end

/-! ## Full send lists -/

theorem isAsk_eq (m : Message) : isAsk m = (m == .ask .line || m == .ask .timer) := by
  cases m with
  | ask src => cases src <;> rfl
  | _ => rfl

theorem any_isAsk_iff (l : List Message) : l.any isAsk = true ↔ ∃ src, .ask src ∈ l := by
  rw [List.any_eq_true]
  constructor
  · rintro ⟨m, hm, ask⟩
    cases m with
    | ask src => exact ⟨src, hm⟩
    | _ => simp [isAsk] at ask
  · rintro ⟨src, hm⟩
    exact ⟨_, hm, rfl⟩

/-- Settles O60: the one send of each command, and what surrounds it the same whatever the list. -/
theorem fullSendLists : Obligations.FullSendLists := by
  intro s t c side m id number reason h busy flags none nonzero list holds agrees asked stray starts full sends stepped
  have ran : exec c s = .next (onFull side m (sendList side s.casc) t) := by
    rcases sends with ⟨follower, rfl, sends⟩ | ⟨follower, rfl, last, sends⟩ | ⟨leader, rfl, sends⟩
    · rcases sends with ⟨kind, n, ⟨rfl, what⟩, why⟩ | ⟨last, settles, rfl, ⟨a, ha, rfl, below, go, unsent, -⟩, rfl⟩
        | ⟨rfl, ⟨a, ha, rfl, settled, go, below, unsent⟩, rfl⟩ | ⟨o, b, rfl, ⟨a, ha, rfl, go, own, known⟩, rfl⟩
        | ⟨o, last, free, abandoned, settles, rfl, rfl⟩ | ⟨⟨rfl, other⟩, rfl⟩
      · have formed : (Message.prepare id kind n).wellFormed = true := by
          rcases what with ⟨rfl, rfl⟩ | ⟨rfl, rfl⟩
          · rfl
          · exact prepare_wellFormed nonzero
        rcases why with ⟨⟨a, ha, -⟩, rfl⟩ | ⟨free, refusal, rfl⟩
        · exact onFull_prepareBusy h follower full formed (by simp [ha]) stepped
        · exact onFull_prepareRefused h follower full formed free refusal stepped
      · exact onFull_readyRefused h follower full last busy settles ha below go unsent stepped
      · exact onFull_readyOk h follower full ha settled go below unsent stepped
      · exact onFull_doneSend h follower full ha go own known stepped
      · exact onFull_doneAbandoned h follower full last busy settles free abandoned stepped
      · exact onFull_strayGoUp h follower full nonzero other stepped
    · rcases sends with ⟨⟨rfl, other⟩, rfl⟩ | ⟨rfl, early, rfl⟩
        | ⟨rfl, agreeing, ⟨a, ha, rfl, sent, go, -, below⟩, rfl⟩
        | ⟨kind, n, ⟨rfl, what⟩, free, passes, rfl⟩
      · exact onFull_strayGoDown h follower last full nonzero other stepped
      · exact onFull_abandon h follower last full early stepped
      · exact onFull_go h follower last full busy none nonzero agreeing ha sent go below stepped
      · rcases what with ⟨rfl, rfl⟩ | ⟨rfl, rfl⟩
        · exact onFull_prepareAccepted h follower last full busy none rfl free passes stepped
        · exact onFull_prepareAccepted h follower last full busy none (prepare_wellFormed nonzero) free passes stepped
    · rcases sends with ⟨rfl, ⟨a, ha, rfl, running⟩, rfl⟩ | ⟨rfl, ⟨a, ha, rfl, below, -⟩, rfl⟩
        | ⟨rfl, a, ha, rfl, settled, below, go, ⟨goal, rfl⟩ | ⟨goal, rfl⟩⟩
        | ⟨-, ⟨d, listening⟩, ⟨rfl, check, rfl⟩ | ⟨rfl, check, rfl⟩⟩
      · exact onFull_agreementTimeout h leader full busy flags ha running stepped
      · exact onFull_leaderRefused h leader full busy flags ha below stepped
      · exact onFull_leaderGoTake h leader full busy flags ha settled below go goal stepped
      · exact onFull_leaderGoRollback h leader full busy flags ha settled below go goal stepped
      · exact onFull_take listening leader full check stepped
      · exact onFull_rollback listening leader full busy none check stepped
  have own : sendList side s.casc = list := by
    cases side
    · rfl
    · rfl
  have filtered : (fun x => !isAsk x) = fun x => x != .ask .line && x != .ask .timer := by
    funext x
    rw [isAsk_eq, Bool.not_or]
    rfl
  rw [ran, own]
  refine ⟨fun ask => ?_, fun absent => ?_⟩
  · rw [onFull, if_pos ((any_isAsk_iff _).mpr ask), filtered]
    cases side
    · rfl
    · rfl
  · rw [onFull, if_neg fun ask => (any_isAsk_iff _).mp ask |>.elim absent]
    cases side
    · rfl
    · rfl

end Sys2Proof.Machine
end
